-- ==== Sys2Proof/Word.lean ====
section
/-! DEFINITION. The words of the CCFE block: the widths the spec gives its registers and ports
(`10_state.md` R20 to R26 and R33, `30_encoding.md` R60 to R63). Bit 0 is the least significant bit (R7). -/

namespace Sys2Proof

/-- One byte of a frame, and the flags byte (R26, R63). -/
abbrev Byte := BitVec 8

/-- An `IN_W`-bit axis pattern, two's complement (R20, R60). -/
abbrev AxisWord := BitVec 16

/-- An 11-bit ProtocolValue (R24, R61). -/
abbrev ProtocolValue := BitVec 11

/-- A `CH_W`-bit channel input of the encoder, unsigned (R62). -/
abbrev ChannelWord := BitVec 16

/-- The opcode on port `op` (R68). -/
abbrev Opcode := BitVec 3

/-- The mask on port `upd_mask`: bit `i` selects axis `i` (R71). -/
abbrev AxisMask := BitVec 4

/-- The axis register file `AX[0..3]`: roll, pitch, yaw, throttle (R20). -/
abbrev Axes := Vector AxisWord 4

/-- A ChannelSet: sixteen ProtocolValues, index = wire position (R25, R64). -/
abbrev ChannelSet := Vector ProtocolValue 16

/-- The 22 payload bytes of a frame (R43, R47). -/
abbrev Payload := Vector Byte 22

/-- A frame: 25 bytes, byte 0 first (R26, R42). -/
abbrev Frame := Vector Byte 25

end Sys2Proof
end

