-- ==== Sys2Proof/Machine/Lanes.lean ====
section
/-! DEFINITION. Bit fields laid end to end: the one bit-order convention of the block (`20_memory.md` R43, "lower stream position =
lower bit weight"), used by the packer, the unpacker and the flat form of a command. -/

namespace Sys2Proof.Machine

/-- The integer whose bits `w*k` to `w*k + w - 1` are lane `k`: the loop `P = P | (lane[k] << (w*k))` of R111. -/
def concatLanes {w n : Nat} (lanes : Vector (BitVec w) n) : Nat :=
  (List.finRange n).foldl (fun p k => p ||| (lanes[k].toNat <<< (w * k.val))) 0

/-- Bits `w*k + w - 1` down to `w*k` of `p` (R7). -/
def sliceLane (w p k : Nat) : BitVec w :=
  BitVec.ofNat w (p >>> (w * k))

/-- All lanes of `p`: the inverse of `concatLanes`. -/
def sliceLanes (w n p : Nat) : Vector (BitVec w) n :=
  Vector.ofFn fun k => sliceLane w p k.val

end Sys2Proof.Machine
end

