-- ==== Sys2Proof/Config.lean ====
section
/-! DEFINITION. What is fixed for an instance of the block: the parameters of `00_scope.md` R5 and R6, the shape of its input
ports (`10_state.md` R33), and the free values, constants without a body that nothing can evaluate. -/

namespace Sys2Proof

namespace Config

/-- Channels per frame (R5). -/
abbrev NCH : Nat := 16
/-- Named axes (R5). -/
abbrev NAX : Nat := 4
/-- Bits per ProtocolValue (R5). -/
abbrev PW : Nat := 11
/-- The largest ProtocolValue and the scale of the affine map (R5). -/
abbrev PMAX : Nat := 2047
/-- The neutral ProtocolValue (R5). -/
abbrev NEUTRAL : ProtocolValue := 1024#11
/-- Frame length in bytes (R5). -/
abbrev FLEN : Nat := 25
/-- Payload length in bytes (R5). -/
abbrev PLEN : Nat := 22
/-- Frame byte 0 (R5, R28). -/
abbrev START : Byte := 0x0F#8
/-- Frame byte 24 (R5, R28, R122). -/
abbrev END : Byte := 0x00#8
/-- The flags byte TICK sends (R5, R28, R136). -/
abbrev TICK_FLAGS : Byte := 0x00#8

/-- Width of an axis value (R6, D2; log 13). -/
abbrev IN_W : Nat := 16
/-- Fraction bits of an axis value (R6, D2; log 13). -/
abbrev IN_F : Nat := 14
/-- Width of an encoder channel input (R6, D6; log 13). -/
abbrev CH_W : Nat := 16

end Config

/-- One sample of the input ports (R33): what the host drives at one step. The clock is not among them: a step is one
accepted command (R183). -/
structure Ports where
  /-- Synchronous reset, active high (R170). -/
  rst : Bool
  /-- The opcode (R69). -/
  op : Opcode
  /-- UPD: bit `i` selects `AX[i]` (R71). -/
  updMask : AxisMask
  /-- UPD: the new value of each selected axis (R71). -/
  updVal : Vector AxisWord 4
  /-- CAL: the value to calibrate (R71). -/
  calIn : AxisWord
  /-- ENC: the sixteen channel values, index = wire position (R71). -/
  encCh : Vector ChannelWord 16
  /-- ENC: the flags byte (R71). -/
  encFlags : Byte
deriving DecidableEq, Repr, Inhabited

namespace Config

/-- Free value: what `PV` holds after a reset, indexed by the step count at that reset (R32, U6; DESIGN CHOICE, log 3
and log 4). -/
opaque unspecifiedPv : Nat → ProtocolValue

/-- Free value: what `CS` holds after a reset (R32, U6; DESIGN CHOICE, log 3 and log 4). -/
opaque unspecifiedCs : Nat → ChannelSet

/-- Free value: what `FR` holds after a reset (R32, U6; DESIGN CHOICE, log 3 and log 4). -/
opaque unspecifiedFr : Nat → Frame

/-- Free value: what the host drives at a step for which `State.inputs` lists nothing (R13, R184; DESIGN CHOICE, log 2). -/
opaque freePorts : Nat → Ports

/-- `STEP_CYCLES(op)`, the clock cycles of a step: positive, open, read by no rule and by nothing in the model (R183, U10;
log 14). -/
opaque stepCycles : Opcode → ℕ+

end Config

end Sys2Proof
end

