-- ==== Sys2Proof/Syntax.lean ====
section
/-! DEFINITION. The operations of the block: one constructor per row of spec/opcode_table.json (`30_encoding.md` R69). -/

namespace Sys2Proof

/-- One operation with its operands. Every term can be executed; every operand pattern is legal (R74). -/
inductive Instr where
  /-- NOP: do nothing (R130). -/
  | nop
  /-- UPD `mask, v0, v1, v2, v3`: masked atomic write of the axis registers (R131). -/
  | upd (mask : AxisMask) (vals : Vector AxisWord 4)
  /-- CAL `v`: calibrate one value (R102). -/
  | cal (calIn : AxisWord)
  /-- SNAP: take a snapshot of the axes into the ChannelSet register (R134). -/
  | snap
  /-- ENC `c0, ..., c15, flags`: encode a ChannelSet given as operands (R120). -/
  | enc (ch : Vector ChannelWord 16) (flags : Byte)
  /-- TICK: snapshot and encode in one step (R137). -/
  | tick
  /-- RSV6: reserved opcode `110` (R140). -/
  | rsv6
  /-- RSV7: reserved opcode `111` (R140). -/
  | rsv7
deriving DecidableEq, Repr, Inhabited

/-- The four axis names, in the fixed order of the wire (R20). -/
inductive AxisName where
  | roll
  | pitch
  | yaw
  | throttle
deriving DecidableEq, Repr, Inhabited

end Sys2Proof
end

