-- ==== Sys2Proof/WellFormed.lean ====
section
/-! DEFINITION. Well-formed operations. Every operand pattern of every operation is legal (`30_encoding.md` R74), so nothing is
illegal here; what is checked is that a term is the CANONICAL one of its commands. The value of an axis that a UPD's mask does not
select is ignored (R72, "-" in R76), and the canonical term has zero there, so that two UPDs that the port cannot tell apart
are one term (DESIGN CHOICE, log 11). -/

namespace Sys2Proof

/-- UPD's check for axis `i`: selected, or its ignored value is zero. -/
def updLaneCanonical (mask : AxisMask) (vals : Vector AxisWord 4) (i : Fin 4) : Bool :=
  mask.getLsbD i || vals[i] == 0#16

/-- The term is the canonical one of its commands. -/
def Instr.wellFormed : Instr → Bool
  | .nop => true
  | .upd mask vals => (List.finRange 4).all fun i => updLaneCanonical mask vals i
  | .cal _ => true
  | .snap => true
  | .enc _ _ => true
  | .tick => true
  | .rsv6 => true
  | .rsv7 => true

end Sys2Proof
end

