-- ==== Sys2Proof/Decode.lean ====
section
/-! DEFINITION. The command port's encoding (`30_encoding.md` R68 to R74): the decoder, total on every sample of the ports, and the
encoder. The decoder rejects nothing, because every 3-bit value selects exactly one row (R69) and every operand is legal (R74). The
flat word of a command (for the host's opcode table) is the model's own layout of the ports (DESIGN CHOICE, log 6). -/

namespace Sys2Proof

/-- The opcode of an operation (R69). -/
def Instr.opcode : Instr → Opcode
  | .nop => 0b000#3
  | .upd _ _ => 0b001#3
  | .cal _ => 0b010#3
  | .snap => 0b011#3
  | .enc _ _ => 0b100#3
  | .tick => 0b101#3
  | .rsv6 => 0b110#3
  | .rsv7 => 0b111#3

/-- The canonical form of a UPD's values under its mask: an ignored value becomes zero. -/
def updCanonicalVals (mask : AxisMask) (vals : Vector AxisWord 4) : Vector AxisWord 4 :=
  Vector.ofFn fun i => if mask.getLsbD i then vals[i] else 0#16

/-- The operation that a sample of the ports presents (R68, R69, R71). All three opcode bits are compared (R70); a port that the
opcode's format does not use plays no part, nor does the value of an axis that the mask does not select (R72). -/
def decode (p : Ports) : Instr :=
  match p.op.getLsbD 2, p.op.getLsbD 1, p.op.getLsbD 0 with
  | false, false, false => .nop
  | false, false, true => .upd p.updMask (updCanonicalVals p.updMask p.updVal)
  | false, true, false => .cal p.calIn
  | false, true, true => .snap
  | true, false, false => .enc p.encCh p.encFlags
  | true, false, true => .tick
  | true, true, false => .rsv6
  | true, true, true => .rsv7

/-- The ports with nothing driven but an opcode: no reset, every operand port zero. -/
def Ports.idle (op : Opcode) : Ports where
  rst := false
  op := op
  updMask := 0#4
  updVal := Vector.replicate 4 0#16
  calIn := 0#16
  encCh := Vector.replicate 16 0#16
  encFlags := 0#8

/-- The ports that present an operation (R68, R71). Ports its format does not use are driven to zero (any value would do, R72;
log 21). -/
def encode : Instr → Ports
  | .nop => Ports.idle 0b000#3
  | .upd mask vals => { Ports.idle 0b001#3 with updMask := mask, updVal := vals }
  | .cal v => { Ports.idle 0b010#3 with calIn := v }
  | .snap => Ports.idle 0b011#3
  | .enc ch flags => { Ports.idle 0b100#3 with encCh := ch, encFlags := flags }
  | .tick => Ports.idle 0b101#3
  | .rsv6 => Ports.idle 0b110#3
  | .rsv7 => Ports.idle 0b111#3

/-! ### The flat word of a command

`op` in bits 2..0, then the operand ports in the order of R33: `upd_mask` 6..3, `upd_val[i]` from bit 7 + 16 i, `cal_in` from bit 71,
`enc_ch[k]` from bit 87 + 16 k, `enc_flags` from bit 343: 351 bits. -/

/-- The flat word of a command's ports. -/
def Ports.toWord (p : Ports) : Nat :=
  p.op.toNat ||| (p.updMask.toNat <<< 3) ||| (Machine.concatLanes p.updVal <<< 7) ||| (p.calIn.toNat <<< 71)
    ||| (Machine.concatLanes p.encCh <<< 87) ||| (p.encFlags.toNat <<< 343)

/-- The ports that a flat word drives, without reset. -/
def Ports.ofWord (w : Nat) : Ports where
  rst := false
  op := BitVec.ofNat 3 w
  updMask := BitVec.ofNat 4 (w >>> 3)
  updVal := Machine.sliceLanes 16 4 (w >>> 7)
  calIn := BitVec.ofNat 16 (w >>> 71)
  encCh := Machine.sliceLanes 16 16 (w >>> 87)
  encFlags := BitVec.ofNat 8 (w >>> 343)

/-- The flat word of an operation. -/
def encodeWord (i : Instr) : Nat := (encode i).toWord

/-- The operation a flat word presents. -/
def decodeWord (w : Nat) : Instr := decode (Ports.ofWord w)

/-- What the decoder reads from a command whose flat word is the low `nbits` bits of `w`, the bits above them 0. It never
refuses. -/
def decodeTableWord (nbits w : Nat) : Option Instr := some (decodeWord (w % 2 ^ nbits))

end Sys2Proof
end

