-- ==== Sys2Proof/Machine/State.lean ====
section
/-! DEFINITION. The state of the block (`10_state.md`), its faults and refusals, and the state after reset (R32, R170). -/

namespace Sys2Proof.Machine

/-- The faults of the block: none. The spec's fault set is empty (`60_exceptions.md` R150, R162), so nobody raises one. Safe: no
state of the hardware is shut out. -/
inductive Fault : Type
deriving DecidableEq, Repr

/-- The result registers that an output port shows with a valid bit beside it (R33). -/
inductive ResultPort where
  | pvOut
  | csOut
  | frameOut
deriving DecidableEq, Repr

/-- Why the model refuses. No operation of the block and no step refuses: the two reasons below are for an OBSERVATION by the
host. -/
inductive Refusal where
  /-- An instruction without a meaning yet. Raised by an arm of `exec` only; no arm raises it. Safe. -/
  | notModelled (mnemonic : String)
  /-- The host looks at `PV`, `CS` or `FR` while its valid bit is 0: the value is unspecified and the model refuses the
  observation (R177, U6; log 9). Raised by the observations of Machine/Observe.lean and by `memRead`. Safe. -/
  | resultNotValid (port : ResultPort)
  /-- A `MemRead(a, n)` with `a + n > 25`: the notation is not defined there and frame bytes 25 and above do not exist (R11,
  R47; log 10). Raised by `memRead`. Safe. -/
  | frameIndexAbsent (a n : Nat)
deriving DecidableEq, Repr

/-- The state: every register of `10_state.md`, and beside them what the host drives next. -/
structure State where
  /-- `AX[0..3]`, the axis registers, as `IN_W`-bit patterns (R20). -/
  ax : Axes
  /-- `PV`, the result of the last CAL (R24). -/
  pv : ProtocolValue
  /-- `PV_VALID` (R24). -/
  pvValid : Bool
  /-- `CS[0..15]`, the ChannelSet of the last SNAP or TICK (R25). -/
  cs : ChannelSet
  /-- `CS_VALID` (R25). -/
  csValid : Bool
  /-- `FR[0..24]`, the frame of the last ENC or TICK (R26). -/
  fr : Frame
  /-- `FR_VALID` (R26). -/
  frValid : Bool
  /-- The model's own: what the host drives on the input ports at the coming steps, oldest first (R13, R184; log 1). -/
  inputs : List Ports
  /-- The model's own: the steps taken since `State.reset`; only an index of free values (log 5). -/
  now : Nat
deriving DecidableEq, Repr

/-- The machine right after reset (R32, R170). `AX` and the valid bits are the spec's; `PV`, `CS` and `FR` are free values (log 3);
no input is listed (log 1) and the step count is 0 (log 5). -/
def State.reset : State where
  ax := Vector.replicate 4 0#16
  pv := Config.unspecifiedPv 0
  pvValid := false
  cs := Config.unspecifiedCs 0
  csValid := false
  fr := Config.unspecifiedFr 0
  frValid := false
  inputs := []
  now := 0

end Sys2Proof.Machine
end

