-- ==== Sys2Proof/Machine/Flags.lean ====
section
/-! DEFINITION. The status bits. There is no condition code, carry, overflow, zero or sign flag and no saturation flag; the only status
bits are the three valid bits, each set by its operations and cleared only by reset (`10_state.md` R27). -/

namespace Sys2Proof.Machine

/-- `PV_VALID <- 1` (R102). -/
def State.setPvValid (s : State) : State := { s with pvValid := true }

/-- `CS_VALID <- 1` (R134, R137). -/
def State.setCsValid (s : State) : State := { s with csValid := true }

/-- `FR_VALID <- 1` (R120, R137). -/
def State.setFrValid (s : State) : State := { s with frValid := true }

/-- All three valid bits cleared: reset does it, and no operation (R27, R32). -/
def State.clearValid (s : State) : State := { s with pvValid := false, csValid := false, frValid := false }

end Sys2Proof.Machine
end

