-- ==== Sys2Proof/Machine/Operands.lean ====
section
/-! DEFINITION. Every operand form (`30_encoding.md` R71 to R73) and the primitive functions of `00_scope.md` R9 that read one. There
are no immediates, no addressing modes and no index operands (R30, R73). -/

namespace Sys2Proof.Machine

/-- `sext_N(b)`: the signed value of an N-bit pattern (R9). An axis operand is `sext_IN_W` of its port, never scaled (R73). -/
def sext {w : Nat} (b : BitVec w) : Int :=
  if b.getLsbD (w - 1) then (b.toNat : Int) - 2 ^ w else b.toNat

/-- `zext_N(b)`: the unsigned value of an N-bit pattern (R9). A channel operand is `zext_CH_W` of its port, then `mask11` (R73). -/
def zext {w : Nat} (b : BitVec w) : Nat := b.toNat

/-- `mask11(c)`: `c mod 2048`, that is `c[10:0]` (R9, R110): truncation, not saturation. -/
def mask11 (x : Nat) : ProtocolValue := BitVec.ofNat 11 (x % 2048)

/-- `clamp(x, lo, hi)` on integers (R9). -/
def clamp (x lo hi : Int) : Int :=
  if x < lo then lo else if hi < x then hi else x

/-- `a >> k = floor(a / 2^k)` on integers (R8). -/
def shiftRightFloor (a : Int) (k : Nat) : Int := a / 2 ^ k

/-- `upd_mask[i] = 1`: axis `i` is given (R71). -/
def maskSelects (mask : AxisMask) (i : Fin 4) : Bool := mask.getLsbD i

/-- The integers of sixteen channel operands (R120). -/
def channelOperands (ch : Vector ChannelWord 16) : Vector Nat 16 :=
  Vector.ofFn fun k => zext ch[k]

/-- A ProtocolValue written from an integer: the register's 11 bits (R8). The integers written are always in 0..2047 (R93). -/
def toProtocolValue (n : Int) : ProtocolValue := BitVec.ofInt 11 n

end Sys2Proof.Machine
end

