-- ==== Sys2Proof/Machine/Ops.lean ====
section
/-! DEFINITION. The named operations over the registers (`00_scope.md` R10, R11), the reset action (R170), and how a step samples the
input ports. There is no memory (R40) and no exception to take or return from (`60_exceptions.md` R150, R155, R156), so there is no
such operation here. -/

namespace Sys2Proof.Machine

/-- `AX[0..3]` read: the four axis integers in one step (R10, R21). -/
def State.readAx (s : State) : Vector Int 4 := Vector.ofFn fun i => sext s.ax[i]

/-- The masked write of `AX`: exactly the registers the mask selects, together, bit for bit and unclamped (R21, R45, R131). -/
def State.writeAx (s : State) (mask : AxisMask) (vals : Vector AxisWord 4) : State :=
  { s with ax := Vector.ofFn fun i => if maskSelects mask i then vals[i] else s.ax[i] }

/-- `PV <- v` (R24). -/
def State.writePv (s : State) (v : ProtocolValue) : State := { s with pv := v }

/-- `CS[0..15] <- v`, all sixteen together (R25). -/
def State.writeCs (s : State) (v : ChannelSet) : State := { s with cs := v }

/-- `FR[0..24] <- v`, all twenty-five bytes together: `MemWrite(0, 25, v)`, the one form of it that is defined (R11, R26). -/
def State.writeFr (s : State) (v : Frame) : State := { s with fr := v }

/-- A CAL result: the value and its valid bit (R102). -/
def State.latchPv (s : State) (v : ProtocolValue) : State := (s.writePv v).setPvValid

/-- A ChannelSet result: the sixteen values and their valid bit (R134, R137). -/
def State.latchCs (s : State) (v : ChannelSet) : State := (s.writeCs v).setCsValid

/-- A frame result: the twenty-five bytes and their valid bit (R120, R137). -/
def State.latchFr (s : State) (v : Frame) : State := (s.writeFr v).setFrValid

/-- `MemRead(a, n)`: the host's observation of frame bytes `a` to `a + n - 1`, defined only inside 0..24 and only while `FR_VALID` is
1 (R11, R41; log 9, log 10). It changes nothing (R46). -/
def State.memRead (s : State) (a n : Nat) : Except Refusal (List Byte) :=
  if 25 < a + n then .error (.frameIndexAbsent a n)
  else if s.frValid then .ok ((s.fr.toList.drop a).take n)
  else .error (.resultNotValid .frameOut)

/-- The reset action of a step with `rst = 1` (R170, R32): the axes neutral, the valid bits 0, the results unspecified. The free
values are those of this step's count (log 4). -/
def State.applyReset (s : State) : State :=
  { s.clearValid with
    ax := Vector.replicate 4 0#16
    pv := Config.unspecifiedPv s.now
    cs := Config.unspecifiedCs s.now
    fr := Config.unspecifiedFr s.now }

/-- What the input ports show at this step: the oldest listed sample, or a free value where none is listed (R33, R184; log 1,
log 2). -/
def State.presented (s : State) : Ports :=
  match s.inputs with
  | p :: _ => p
  | [] => Config.freePorts s.now

/-- The sample is used up and the step counted; no register of the block changes (log 1, log 5). -/
def State.advance (s : State) : State := { s with inputs := s.inputs.tail, now := s.now + 1 }

/-- `p` placed as the sample of the very next step, in the place of the oldest listed one (log 7). -/
def State.present (s : State) (p : Ports) : State := { s with inputs := p :: s.inputs.tail }

end Sys2Proof.Machine
end

