-- ==== Sys2Proof/Machine/Calibrate.lean ====
section
/-! DEFINITION. The calibrator and CAL (`40_calibrate.md`). -/

namespace Sys2Proof.Machine

/-- `ONE = 2^IN_F`, the integer of 1.0 (R91). -/
def one (inF : Nat) : Int := 2 ^ inF

/-- The intermediate `u` of R91: the clamped value plus one. -/
def calU (inF : Nat) (n : Int) : Int := clamp n (-one inF) (one inF) + one inF

/-- The intermediate `t` of R91: `u * 2047 + ONE`. -/
def calT (inF : Nat) (n : Int) : Int := calU inF n * (Config.PMAX : Int) + one inF

/-- The calibration function for `inF` fraction bits (R91), on unbounded integers. -/
def calAt (inF : Nat) (n : Int) : Int := shiftRightFloor (calT inF n) (inF + 1)

/-- `cal(n)`: the block's calibrator, `IN_F` = 14 (R91). One function for CAL and all four axes (R101, R103). -/
def cal (n : Int) : Int := calAt Config.IN_F n

/-- CAL (R102). -/
def execCal (calIn : AxisWord) (s : State) : Host.Outcome State Fault Refusal :=
  .next (s.latchPv (toProtocolValue (cal (sext calIn))))

end Sys2Proof.Machine
end

