-- ==== Sys2Proof/Machine/Encode.lean ====
section
/-! DEFINITION. The frame encoder and ENC (`41_encode.md`). -/

namespace Sys2Proof.Machine

/-- The sixteen masked channels `c[k] = mask11(x[k])` (R110). -/
def maskChannels (x : Vector Nat 16) : ChannelSet := Vector.ofFn fun k => mask11 x[k]

/-- The 176-bit stream `P` as an integer: channel `k` at bits `11k` to `11k + 10` (R43, R111). -/
def bitstream (chans : ChannelSet) : Nat := concatLanes chans

/-- `pack(c)`: payload byte `i` is `P[8i+7 : 8i]` (R111). -/
def pack (chans : ChannelSet) : Payload := sliceLanes 8 22 (bitstream chans)

/-- Frame assembly: start byte, payload, flags byte, end byte (R42, R47, R114). No check byte is computed (R122). -/
def assemble (payload : Payload) (flags : Byte) : Frame :=
  Vector.ofFn fun i =>
    if i.val = 0 then Config.START
    else if h : 1 ≤ i.val ∧ i.val ≤ 22 then payload[i.val - 1]
    else if i.val = 23 then flags
    else Config.END

/-- `encode(x, f)`: the frame of sixteen channel inputs, non-negative integers, and a flags byte (R114). -/
def encodeFrame (x : Vector Nat 16) (flags : Byte) : Frame := assemble (pack (maskChannels x)) flags

/-- ENC (R120). -/
def execEnc (ch : Vector ChannelWord 16) (flags : Byte) (s : State) : Host.Outcome State Fault Refusal :=
  .next (s.latchFr (encodeFrame (channelOperands ch) flags))

end Sys2Proof.Machine
end

