-- ==== Sys2Proof/Machine/Store.lean ====
section
/-! DEFINITION. NOP, UPD, SNAP, TICK and the reserved opcodes (`42_store_snapshot_tick.md`). -/

namespace Sys2Proof.Machine

/-- NOP (R130): no register is written. -/
def execNop (s : State) : Host.Outcome State Fault Refusal := .next s

/-- UPD (R131). -/
def execUpd (mask : AxisMask) (vals : Vector AxisWord 4) (s : State) : Host.Outcome State Fault Refusal :=
  .next (s.writeAx mask vals)

/-- `snap(a)`: four calibrated axes, twelve constants 1024 (R133, C2). -/
def snapshot (a : Vector Int 4) : ChannelSet :=
  Vector.ofFn fun k => if h : k.val < 4 then toProtocolValue (cal a[k.val]) else Config.NEUTRAL

/-- The integers of a ChannelSet's sixteen entries, as the encoder's channel inputs (R136). -/
def channelInts (chans : ChannelSet) : Vector Nat 16 := Vector.ofFn fun k => zext chans[k]

/-- `tick(a) = encode(snap(a), 0x00)` (R136). -/
def tickFrame (a : Vector Int 4) : Frame := encodeFrame (channelInts (snapshot a)) Config.TICK_FLAGS

/-- SNAP (R134). -/
def execSnap (s : State) : Host.Outcome State Fault Refusal := .next (s.latchCs (snapshot s.readAx))

/-- TICK (R137): one snapshot of the axes, latched and encoded in the same step. -/
def execTick (s : State) : Host.Outcome State Fault Refusal :=
  .next ((s.latchCs (snapshot s.readAx)).latchFr (tickFrame s.readAx))

/-- RSV6, `op = 110` (R140): no register is written (log 8). -/
def execRsv6 (s : State) : Host.Outcome State Fault Refusal := .next s

/-- RSV7, `op = 111` (R140): no register is written (log 8). -/
def execRsv7 (s : State) : Host.Outcome State Fault Refusal := .next s

end Sys2Proof.Machine
end

