-- ==== Sys2Proof/Machine/Dispatch.lean ====
section
/-! DEFINITION. One arm per operation: its meaning. -/

namespace Sys2Proof.Machine

def exec (i : Instr) (s : State) : Host.Outcome State Fault Refusal :=
  match i with
  | .nop => Sys2Proof.Machine.execNop s
  | .upd mask vals => Sys2Proof.Machine.execUpd mask vals s
  | .cal calIn => Sys2Proof.Machine.execCal calIn s
  | .snap => Sys2Proof.Machine.execSnap s
  | .enc ch flags => Sys2Proof.Machine.execEnc ch flags s
  | .tick => Sys2Proof.Machine.execTick s
  | .rsv6 => Sys2Proof.Machine.execRsv6 s
  | .rsv7 => Sys2Proof.Machine.execRsv7 s

end Sys2Proof.Machine
end

