-- ==== Sys2Proof/Machine/Accept.lean ====
section
/-! DEFINITION. What the block does with one sample of its input ports: reset wins over the presented operation (`70_reset_and_hazards.md`
R171, `60_exceptions.md` R154), otherwise the presented operation executes. -/

namespace Sys2Proof.Machine

/-- The spec's `step : State × Command → State` (R13), with the reset input beside the command (R170, R171). -/
def accept (p : Ports) (s : State) : Host.Outcome State Fault Refusal :=
  if p.rst then .next s.applyReset else exec (decode p) s

end Sys2Proof.Machine
end

