-- ==== Sys2Proof/Machine/Step.lean ====
section
/-! DEFINITION. One step of the block (`00_scope.md` R13). -/

namespace Sys2Proof.Machine

/-- One step: the ports are sampled, the sample is used up (log 1), and the block accepts it. -/
def step (s : State) : Host.Outcome State Fault Refusal := accept s.presented s.advance

/-- `s` with the command of flat word `w` (its low `nbits` bits) as the very next sample of the ports, without reset (log 6, log 7). -/
def State.withFetchWord (s : State) (nbits w : Nat) : State := s.present (Ports.ofWord (w % 2 ^ nbits))

end Sys2Proof.Machine
end

