-- ==== Sys2Proof/Machine/Assembler.lean ====
section
/-! DEFINITION. The textual form of an operation stream (`30_encoding.md` R76, R77): literals, one line, and its expansion to an
operation. It is a notation for writing commands and no part of the block (D23; log 16). -/

namespace Sys2Proof.Machine

/-- Why the assembler rejects a line (R76, R77). -/
inductive AsmError where
  /-- The literal is outside the range of its operand. -/
  | outOfRange
  /-- A real literal whose value the axis format does not hold exactly: an error, never rounded. -/
  | notRepresentable
  /-- An axis name other than the four. -/
  | unknownAxis
  /-- "-" for an axis that the mask selects (log 16). -/
  | missingValue
  /-- The line is none of the forms of R76 and R77. -/
  | badLine
deriving DecidableEq, Repr

/-- An axis literal (R76). -/
inductive AxisLit where
  /-- A decimal integer. -/
  | int (n : Int)
  /-- A hexadecimal pattern. -/
  | hex (p : Nat)
  /-- A real literal `#r`. -/
  | real (r : ℚ)
deriving DecidableEq, Repr

/-- The pattern of an integer in the range of an axis value (R60, R76). -/
def axisOfInt (n : Int) : Except AsmError AxisWord :=
  if -32768 ≤ n ∧ n ≤ 32767 then .ok (BitVec.ofInt 16 n) else .error .outOfRange

/-- The pattern an axis literal stands for; `#r` stands for `r * 2^IN_F` (R76). -/
def AxisLit.word : AxisLit → Except AsmError AxisWord
  | .int n => axisOfInt n
  | .hex p => if p < 2 ^ Config.IN_W then .ok (BitVec.ofNat 16 p) else .error .outOfRange
  | .real r =>
    let scaled := r * (2 : ℚ) ^ Config.IN_F
    if scaled.den = 1 then axisOfInt scaled.num else .error .notRepresentable

/-- An unsigned literal of `w` bits: masks, channels and flags (R76). -/
def unsignedLit (w n : Nat) : Except AsmError (BitVec w) :=
  if n < 2 ^ w then .ok (BitVec.ofNat w n) else .error .outOfRange

/-- The index of an axis name (R20). -/
def axisIndex : AxisName → Fin 4
  | .roll => 0
  | .pitch => 1
  | .yaw => 2
  | .throttle => 3

/-- The axis a name stands for; any other name is an error of the assembler (R77). -/
def axisNamed (name : List Char) : Except AsmError AxisName :=
  if name = ['r', 'o', 'l', 'l'] then .ok .roll
  else if name = ['p', 'i', 't', 'c', 'h'] then .ok .pitch
  else if name = ['y', 'a', 'w'] then .ok .yaw
  else if name = ['t', 'h', 'r', 'o', 't', 't', 'l', 'e'] then .ok .throttle
  else .error .unknownAxis

/-- One line: an operation of R76 or a pseudo-operation of R77, its operands still literals. `none` is "-". -/
inductive Asm where
  | nop
  | upd (mask : Nat) (v0 v1 v2 v3 : Option AxisLit)
  | cal (v : AxisLit)
  | snap
  | enc (ch : Vector Nat 16) (flags : Nat)
  | tick
  | setax (name : AxisName) (v : AxisLit)
  | center
  | encn (flags : Nat)
deriving DecidableEq, Repr

/-- The value of one UPD operand under its mask bit: "-" only where the axis is not selected (R76; log 16). -/
def updOperand (selected : Bool) : Option AxisLit → Except AsmError AxisWord
  | some l => l.word
  | none => if selected then .error .missingValue else .ok 0#16

/-- All channel literals of an ENC line (R76). -/
def channelLits : List Nat → Except AsmError (List ChannelWord)
  | [] => .ok []
  | n :: ns => do
    let c ← unsignedLit 16 n
    let cs ← channelLits ns
    .ok (c :: cs)

/-- `1 << i`: the mask that selects one axis (R77). -/
def maskOf (i : Fin 4) : AxisMask := 1#4 <<< i.val

/-- The operation a line stands for, in canonical form (R76, R77). -/
def Asm.toInstr : Asm → Except AsmError Instr
  | .nop => .ok .nop
  | .upd mask v0 v1 v2 v3 => do
    let m ← unsignedLit 4 mask
    let w0 ← updOperand (m.getLsbD 0) v0
    let w1 ← updOperand (m.getLsbD 1) v1
    let w2 ← updOperand (m.getLsbD 2) v2
    let w3 ← updOperand (m.getLsbD 3) v3
    .ok (.upd m (updCanonicalVals m #v[w0, w1, w2, w3]))
  | .cal v => do
    let w ← v.word
    .ok (.cal w)
  | .snap => .ok .snap
  | .enc ch flags => do
    let cs ← channelLits ch.toList
    let f ← unsignedLit 8 flags
    .ok (.enc (Vector.ofFn fun k => cs.getD k.val 0#16) f)
  | .tick => .ok .tick
  | .setax name v => do
    let w ← v.word
    .ok (.upd (maskOf (axisIndex name)) (updCanonicalVals (maskOf (axisIndex name)) (Vector.replicate 4 w)))
  | .center => .ok (.upd 0b1111#4 (Vector.replicate 4 0#16))
  | .encn flags => do
    let f ← unsignedLit 8 flags
    .ok (.enc (Vector.replicate 16 1024#16) f)

/-! ### Reading a line

The characters of a line: everything from `;` on is a comment, a mnemonic, then operands between commas. -/

/-- The line without its comment (R76). -/
def dropComment (line : List Char) : List Char := line.takeWhile (· != ';')

/-- Space or tab. -/
def isBlank (ch : Char) : Bool := ch == ' ' || ch == '\t'

/-- Blanks removed at both ends. -/
def trimBlanks (cs : List Char) : List Char :=
  (((cs.dropWhile isBlank).reverse).dropWhile isBlank).reverse

/-- The fields between commas. -/
def splitCommas : List Char → List (List Char)
  | [] => [[]]
  | ',' :: rest => [] :: splitCommas rest
  | ch :: rest =>
    match splitCommas rest with
    | [] => [[ch]]
    | f :: fs => (ch :: f) :: fs

/-- The value of one digit in a base up to 16. -/
def digitIn (base : Nat) (ch : Char) : Option Nat :=
  let v :=
    if '0' ≤ ch ∧ ch ≤ '9' then some (ch.toNat - '0'.toNat)
    else if 'a' ≤ ch ∧ ch ≤ 'f' then some (ch.toNat - 'a'.toNat + 10)
    else if 'A' ≤ ch ∧ ch ≤ 'F' then some (ch.toNat - 'A'.toNat + 10)
    else none
  v.bind fun d => if d < base then some d else none

/-- A string of one or more digits. -/
def natIn (base : Nat) : List Char → Option Nat
  | [] => none
  | cs => cs.foldl (fun acc ch => acc.bind fun n => (digitIn base ch).map fun d => n * base + d) (some 0)

/-- An unsigned literal: decimal, `0x` hexadecimal or `0b` binary. -/
def natLit : List Char → Option Nat
  | '0' :: 'x' :: cs => natIn 16 cs
  | '0' :: 'b' :: cs => natIn 2 cs
  | cs => natIn 10 cs

/-- An unsigned decimal real: digits, or digits with a fraction. -/
def decimalReal (cs : List Char) : Option ℚ :=
  let whole := cs.takeWhile (· != '.')
  match cs.dropWhile (· != '.') with
  | [] => (natIn 10 whole).map fun n => (n : ℚ)
  | _ :: frac =>
    (natIn 10 whole).bind fun n => (natIn 10 frac).map fun d => (n : ℚ) + (d : ℚ) / (10 : ℚ) ^ frac.length

/-- An axis literal (R76). -/
def axisLit : List Char → Option AxisLit
  | '#' :: '-' :: cs => (decimalReal cs).map fun r => .real (-r)
  | '#' :: cs => (decimalReal cs).map .real
  | '0' :: 'x' :: cs => (natIn 16 cs).map .hex
  | '-' :: cs => (natIn 10 cs).map fun n => .int (-(n : Int))
  | cs => (natIn 10 cs).map fun n => .int (n : Int)

/-- An operand of UPD: an axis literal or "-" (R76). -/
def updLit : List Char → Option (Option AxisLit)
  | ['-'] => some none
  | cs => (axisLit cs).map some

/-- The error of a field that is no literal of its kind. -/
def orBadLine {α : Type} : Option α → Except AsmError α
  | some a => .ok a
  | none => .error .badLine

/-- The unsigned literals of a list of fields. -/
def natLits : List (List Char) → Option (List Nat)
  | [] => some []
  | f :: fs => (natLit f).bind fun n => (natLits fs).map fun ns => n :: ns

/-- The line of a mnemonic and its operand fields (R76, R77). -/
def parseFields (mnemonic : List Char) (fields : List (List Char)) : Except AsmError Asm :=
  match mnemonic, fields with
  | ['N', 'O', 'P'], [] => .ok .nop
  | ['S', 'N', 'A', 'P'], [] => .ok .snap
  | ['T', 'I', 'C', 'K'], [] => .ok .tick
  | ['C', 'E', 'N', 'T', 'E', 'R'], [] => .ok .center
  | ['C', 'A', 'L'], [v] => do
    let l ← orBadLine (axisLit v)
    .ok (.cal l)
  | ['E', 'N', 'C', 'N'], [f] => do
    let n ← orBadLine (natLit f)
    .ok (.encn n)
  | ['S', 'E', 'T', 'A', 'X'], [name, v] => do
    let a ← axisNamed name
    let l ← orBadLine (axisLit v)
    .ok (.setax a l)
  | ['U', 'P', 'D'], [m, v0, v1, v2, v3] => do
    let mask ← orBadLine (natLit m)
    let l0 ← orBadLine (updLit v0)
    let l1 ← orBadLine (updLit v1)
    let l2 ← orBadLine (updLit v2)
    let l3 ← orBadLine (updLit v3)
    .ok (.upd mask l0 l1 l2 l3)
  | ['E', 'N', 'C'], fs => do
    let ns ← orBadLine (natLits fs)
    if ns.length = 17 then .ok (.enc (Vector.ofFn fun k => ns.getD k.val 0) (ns.getD 16 0)) else .error .badLine
  | _, _ => .error .badLine

/-- One line of an operation stream: nothing (blank or a comment), or an operation (R76). -/
def assembleLine (line : List Char) : Except AsmError (Option Instr) :=
  match trimBlanks (dropComment line) with
  | [] => .ok none
  | body =>
    let mnemonic := body.takeWhile fun ch => !isBlank ch
    let rest := trimBlanks (body.dropWhile fun ch => !isBlank ch)
    let fields := if rest.isEmpty then [] else (splitCommas rest).map trimBlanks
    do
      let asm ← parseFields mnemonic fields
      let i ← asm.toInstr
      .ok (some i)

end Sys2Proof.Machine
end

