-- ==== Sys2Proof/Machine/Observe.lean ====
section
/-! DEFINITION. The output ports (`10_state.md` R33) and the host's observation of them (`70_reset_and_hazards.md` R177). The outputs
are functions of the state alone (R13), show their registers at all times, and looking at them changes nothing (R33, R46). `AX` has
no output port (R21). -/

namespace Sys2Proof.Machine

/-- All output ports of R33. -/
structure Outputs where
  pvOut : ProtocolValue
  pvValid : Bool
  csOut : ChannelSet
  csValid : Bool
  frameOut : Frame
  frameValid : Bool
deriving DecidableEq, Repr

/-- What the output ports show in a state (R13, R33). -/
def State.outputs (s : State) : Outputs where
  pvOut := s.pv
  pvValid := s.pvValid
  csOut := s.cs
  csValid := s.csValid
  frameOut := s.fr
  frameValid := s.frValid

/-- The host's observation of `pv_out`: refused while `pv_valid` is 0 (R177, U6; log 9). -/
def State.observePv (s : State) : Except Refusal ProtocolValue :=
  if s.outputs.pvValid then .ok s.outputs.pvOut else .error (.resultNotValid .pvOut)

/-- The host's observation of `cs_out`: refused while `cs_valid` is 0 (R177, U6; log 9). -/
def State.observeCs (s : State) : Except Refusal ChannelSet :=
  if s.outputs.csValid then .ok s.outputs.csOut else .error (.resultNotValid .csOut)

/-- The host's observation of `frame_out`: refused while `frame_valid` is 0 (R177, U6; log 9). -/
def State.observeFrame (s : State) : Except Refusal Frame :=
  if s.outputs.frameValid then .ok s.outputs.frameOut else .error (.resultNotValid .frameOut)

end Sys2Proof.Machine
end

