-- ==== Sys2Proof/Machine/Reference.lean ====
section
/-! DEFINITION. Functions the spec gives for stating properties and for tests; none is a function of the hardware: `cal_real`
(`40_calibrate.md` R90) and `unpack` (`41_encode.md` R119; the block has no receive path, R4). -/

namespace Sys2Proof.Machine

/-- `rhu(x) = floor(x + 1/2)`: round to nearest, ties upward (R9, D3; log 15). -/
def rhu {K : Type} [Field K] [LinearOrder K] [FloorRing K] (x : K) : Int := ⌊x + 1 / 2⌋

/-- `cal_real(v) = rhu((clamp(v, -1, 1) + 1) / 2 * 2047)` (R90), over any ordered field with a floor: the rationals, the reals
(log 15). -/
def calReal {K : Type} [Field K] [LinearOrder K] [FloorRing K] (v : K) : Int :=
  rhu ((max (-1) (min v 1) + 1) / 2 * (Config.PMAX : K))

/-- `unpack(payload)`: the inverse of `pack` (R119). -/
def unpack (payload : Payload) : ChannelSet := sliceLanes 11 16 (concatLanes payload)

/-- `v[hi:lo]`: bits `hi` down to `lo` of `v` as an unsigned integer (R7). -/
def bitSlice (v hi lo : Nat) : Nat := v / 2 ^ lo % 2 ^ (hi - lo + 1)

/-- The payload of a frame, `FR[1..22]` (R47). -/
def payloadOf (frame : Frame) : Payload := Vector.ofFn fun i => frame[i.val + 1]

end Sys2Proof.Machine
end

