-- ==== Sys2Proof/Safety.lean ====
section
/-! DEFINITION. What counts as a safe run, in the terms the claims use: the invariant of the result registers, the runs a host can
drive, the host's duties (`70_reset_and_hazards.md` R176 to R178, R184), and what a host can tell apart. -/

namespace Sys2Proof

namespace Machine

/-- The result registers' invariant: a valid ChannelSet is neutral in positions 4 to 15 (R25), a valid frame has its start and end
bytes (R26). It says nothing of a register whose valid bit is 0. -/
abbrev State.Inv (s : State) : Prop :=
  (s.csValid = true → ∀ k : Fin 16, 4 ≤ k.val → s.cs[k] = Config.NEUTRAL) ∧
  (s.frValid = true → s.fr[0] = Config.START ∧ s.fr[24] = Config.END)

/-- The run of `ps.length` steps in which the host drives exactly the samples `ps`, oldest first, before anything else listed. -/
def drive (ps : List Ports) (s : State) : Host.Outcome State Fault Refusal :=
  Sys2Proof.core.run ps.length { s with inputs := ps ++ s.inputs }

/-- No sample of the run applies reset. -/
def withoutReset (ps : List Ports) : Prop := ∀ p ∈ ps, p.rst = false

/-- The value that the latest UPD of a stream whose mask selects axis `i` gives it, if there is one (R49, R132): read off the ports, not
off the machine. -/
def lastWrite (i : Fin 4) : List Ports → Option AxisWord
  | [] => none
  | p :: rest =>
    match lastWrite i rest with
    | some v => some v
    | none => if p.op = 0b001#3 ∧ p.updMask.getLsbD i then some p.updVal[i] else none

/-- The step leaves the frame register alone: no reset, no ENC, no TICK. The host's duty while it sends a frame over several steps is
to present only such steps (R176). -/
def keepsFrame (p : Ports) : Prop := p.rst = false ∧ p.op ≠ 0b100#3 ∧ p.op ≠ 0b101#3

/-- The host's duty of R176 over a whole stretch of steps. -/
def sendsWhole (ps : List Ports) : Prop := ∀ p ∈ ps, keepsFrame p

/-- A host cannot tell the two states apart, now or by any later snapshot: the same axes, the same valid bits, and the same contents in
every result register that is valid. Registers whose valid bit is 0 may differ (R32, U6). -/
def State.Alike (s s' : State) : Prop :=
  s.ax = s'.ax ∧ s.pvValid = s'.pvValid ∧ s.csValid = s'.csValid ∧ s.frValid = s'.frValid ∧
  (s.pvValid = true → s.pv = s'.pv) ∧ (s.csValid = true → s.cs = s'.cs) ∧ (s.frValid = true → s.fr = s'.fr)

end Machine

end Sys2Proof
end

