-- ==== Sys2Proof/Certificates/Slice0/Obligations.lean ====
section
/-! DEFINITION. The statements for the provers, in the order of OBLIGATIONS.json. Rule numbers are those of spec/. A next state written
`t = { s with f := t.f, g := true }` is the frame: every field of State but `f` and `g` is unchanged, the inputs and the step
count among them. -/

open Sys2Proof Sys2Proof.Machine

/-! ### The command port -/

/-- Each opcode value selects its row, with the operands of its format (R69, R71). That the value of an axis which the mask does not select
stands as zero in the decoded UPD is the model's choice (log 11); the spec says only that it is ignored (R72). -/
def Obligations.EveryOpcodeSelectsItsRow : Prop :=
  ∀ p : Ports,
    (p.op = 0b000#3 → decode p = .nop) ∧
    (p.op = 0b001#3 → ∃ vals : Vector AxisWord 4, decode p = .upd p.updMask vals ∧
      ∀ i : Fin 4, vals[i] = if p.updMask.getLsbD i.val then p.updVal[i] else 0#16) ∧
    (p.op = 0b010#3 → decode p = .cal p.calIn) ∧
    (p.op = 0b011#3 → decode p = .snap) ∧
    (p.op = 0b100#3 → decode p = .enc p.encCh p.encFlags) ∧
    (p.op = 0b101#3 → decode p = .tick) ∧
    (p.op = 0b110#3 → decode p = .rsv6) ∧
    (p.op = 0b111#3 → decode p = .rsv7)

/-- Decoding what the encoder drives gives the operation back, every operand at every value, both on the ports and through the flat
word; the encoder never drives reset (R68 to R73; the flat word is the model's, log 6). -/
def Obligations.DecodeInvertsEncode : Prop :=
  ∀ i : Instr, i.wellFormed = true →
    decode (encode i) = i ∧ decodeWord (encodeWord i) = i ∧ (encode i).rst = false

/-- A port that the opcode's format does not use has no effect on the step, nor has `upd_val[i]` with `upd_mask[i] = 0` (R72): two
samples that agree on reset, on the opcode and on what its format uses are accepted alike in every state. -/
def Obligations.UnusedPortsHaveNoEffect : Prop :=
  ∀ (p q : Ports), p.rst = q.rst → p.op = q.op →
    (p.op = 0b001#3 → p.updMask = q.updMask ∧ ∀ i : Fin 4, p.updMask.getLsbD i.val = true → p.updVal[i] = q.updVal[i]) →
    (p.op = 0b010#3 → p.calIn = q.calIn) →
    (p.op = 0b100#3 → p.encCh = q.encCh ∧ p.encFlags = q.encFlags) →
    ∀ s : State, accept p s = accept q s

/-- The decoder answers only canonical terms, and a UPD acts as its canonical form does (R72; the canonical form is the model's, log
11). -/
def Obligations.CanonicalUpdActsAlike : Prop :=
  (∀ p : Ports, (decode p).wellFormed = true) ∧
  (∀ (mask : AxisMask) (vals : Vector AxisWord 4) (s : State),
    (Instr.upd mask (updCanonicalVals mask vals)).wellFormed = true ∧
    exec (.upd mask vals) s = exec (.upd mask (updCanonicalVals mask vals)) s)

/-- Words written out from R69 and R71 (ports laid end to end as log 6 says) decode to what they stand for. -/
def Obligations.SampleWordsDecode : Prop :=
  decodeTableWord 8 0 = some .nop ∧
  decodeTableWord 71 (0x1 + (0b1000 <<< 3) + (0x2000 <<< 55)) = some (.upd 0b1000#4 #v[0#16, 0#16, 0#16, 0x2000#16]) ∧
  decodeTableWord 87 (0x2 + (0xC000 <<< 71)) = some (.cal 0xC000#16) ∧
  decodeTableWord 8 3 = some .snap ∧
  decodeWord (0x4 + (0x0801 <<< 87) + (0xF234 <<< 327) + (0xA5 <<< 343)) =
    .enc #v[0x0801#16, 0#16, 0#16, 0#16, 0#16, 0#16, 0#16, 0#16, 0#16, 0#16, 0#16, 0#16, 0#16, 0#16, 0#16, 0xF234#16] 0xA5#8 ∧
  decodeTableWord 8 5 = some .tick ∧ decodeTableWord 8 6 = some .rsv6 ∧ decodeTableWord 8 7 = some .rsv7

/-! ### Steps and reset -/

/-- A step runs the operation presented (R13, R68). The rest is the model's choice: the presented sample is the oldest listed one, which is then
used up (log 1), or the free sample of that step where none is listed (log 2); the step count grows by one (log 5); and withFetchWord lays a
flat word out on the ports (log 6) as the very next sample, in the place of the oldest listed one, with `rst` = 0 (log 7). -/
def Obligations.StepRunsThePresentedCommand : Prop :=
  (∀ (s : State) (p : Ports) (rest : List Ports), s.inputs = p :: rest → p.rst = false →
    step s = exec (decode p) { s with inputs := rest, now := s.now + 1 }) ∧
  (∀ (s : State) (i : Instr) (rest : List Ports), i.wellFormed = true → s.inputs = encode i :: rest →
    step s = exec i { s with inputs := rest, now := s.now + 1 }) ∧
  (∀ s : State, s.inputs = [] → step s = accept (Config.freePorts s.now) { s with now := s.now + 1 }) ∧
  (∀ (s : State) (nbits w : Nat), ∃ i : Instr, decodeTableWord nbits w = some i ∧
    step (s.withFetchWord nbits w) = exec i { s with inputs := s.inputs.tail, now := s.now + 1 })

/-- Reset wins over the presented operation (R171): whatever the other ports carry, the next state is one and the same, with the axes
neutral and the valid bits 0; a second reset leaves a state that a host cannot tell from it. That the unspecified contents of `PV`, `CS` and `FR`
are the same ones for every other sample is the model's choice (log 4), as is that the sample is used up (log 1). -/
def Obligations.ResetWinsOverTheCommand : Prop :=
  ∀ (s : State) (p : Ports) (rest : List Ports), s.inputs = p :: rest → p.rst = true →
    ∃ t : State, step s = .next t ∧
      t.ax = Vector.replicate 4 0#16 ∧ t.pvValid = false ∧ t.csValid = false ∧ t.frValid = false ∧ t.inputs = rest ∧
      (∀ q : Ports, q.rst = true → step { s with inputs := q :: rest } = .next t) ∧
      (∀ (q : Ports) (rest' : List Ports), q.rst = true → rest = q :: rest' → ∃ u : State, step t = .next u ∧ u.Alike t)

/-- The reset state (R32, R170): every axis is 0.0, the valid bits are 0, and each result register refuses to be observed (R177; to refuse rather
than answer any value, and under these names, is the model's choice, log 9). What the registers hold is a free value (log 3) and the statement
says nothing of it. -/
def Obligations.ResetIsNeutralAndUnobservable : Prop :=
  (∀ i : Fin 4, sext State.reset.ax[i] = 0) ∧
  State.reset.outputs.pvValid = false ∧ State.reset.outputs.csValid = false ∧ State.reset.outputs.frameValid = false ∧
  State.reset.observePv = .error (.resultNotValid .pvOut) ∧ State.reset.observeCs = .error (.resultNotValid .csOut) ∧
  State.reset.observeFrame = .error (.resultNotValid .frameOut) ∧
  (∀ a n : Nat, a + n ≤ 25 → State.reset.memRead a n = .error (.resultNotValid .frameOut))

/-! ### The calibrator -/

/-- CAL (R102, R91): `PV` is the calibrated operand, `PV_VALID` is 1, nothing else changes, for every operand in every state; opcode `010`
presents it. -/
def Obligations.CalLatchesTheCalibratedOperand : Prop :=
  (∀ (calIn : AxisWord) (s : State), ∃ t : State, exec (.cal calIn) s = .next t ∧
    (t.pv.toNat : Int) = ((max (-16384) (min calIn.toInt 16384) + 16384) * 2047 + 16384) / 2 ^ 15 ∧
    t.pvValid = true ∧ t = { s with pv := t.pv, pvValid := true }) ∧
  (∀ p : Ports, p.op = 0b010#3 → decode p = .cal p.calIn)

/-- The hardware function agrees with the reference function on every value the hardware can represent, for every number of fraction
bits (R92). -/
def Obligations.CalAgreesWithTheRealReference : Prop :=
  ∀ (inF : Nat) (n : Int), calAt inF n = calReal ((n : ℝ) / 2 ^ inF) ∧ calAt inF n = calReal ((n : ℚ) / 2 ^ inF)

/-- Range (R93): the reference and the hardware function stay in [0, 2047], so the 11-bit register holds the result unchanged. -/
def Obligations.CalStaysInRange : Prop :=
  (∀ v : ℝ, 0 ≤ calReal v ∧ calReal v ≤ 2047) ∧
  (∀ (inF : Nat) (n : Int), 0 ≤ calAt inF n ∧ calAt inF n ≤ 2047 ∧
    ((toProtocolValue (calAt inF n)).toNat : Int) = calAt inF n ∧ calAt inF n % 2048 = calAt inF n)

/-- The fixed points of R94, for every number of fraction bits, with 1535 for +0.5 (C1). -/
def Obligations.CalFixedPoints : Prop :=
  (∀ inF : Nat, calAt inF (-(2 ^ inF)) = 0 ∧ calAt inF 0 = 1024 ∧ calAt inF (2 ^ inF) = 2047 ∧
    calAt (inF + 1) (2 ^ inF) = 1535) ∧
  calReal (-1 : ℝ) = 0 ∧ calReal (0 : ℝ) = 1024 ∧ calReal (1 : ℝ) = 2047 ∧ calReal (1 / 2 : ℝ) = 1535

/-- Ties (R95): the exact image of an input lies halfway between two integers only for the input 0, where it is 1023.5; so for every other
input any round-to-nearest gives `cal`, whichever way it treats ties. -/
def Obligations.CalOnlyTieIsZero : Prop :=
  ∀ (inF : Nat) (n : Int), -(2 ^ inF) ≤ n → n ≤ 2 ^ inF →
    ((∃ m : Int, ((n : ℚ) / 2 ^ inF + 1) / 2 * 2047 = m + 1 / 2) ↔ n = 0) ∧
    (n ≠ 0 → ∀ m : Int, |((n : ℚ) / 2 ^ inF + 1) / 2 * 2047 - m| ≤ 1 / 2 → m = calAt inF n) ∧
    (n = 0 → ((n : ℚ) / 2 ^ inF + 1) / 2 * 2047 = 2047 / 2 ∧ calAt inF n = 1024)

/-- Clamping (R96): an input beyond the range gives the end value, and at `IN_F` = 14 exactly the inputs up to -16376 give 0 and those from
16376 give 2047. -/
def Obligations.CalClampsTheInput : Prop :=
  (∀ (inF : Nat) (n : Int), calAt inF n = calAt inF (clamp n (-(2 ^ inF)) (2 ^ inF)) ∧
    (n < -(2 ^ inF) → calAt inF n = 0) ∧ (2 ^ inF < n → calAt inF n = 2047)) ∧
  (∀ v : ℝ, calReal v = calReal (max (-1) (min v 1))) ∧
  (∀ n : Int, (cal n = 0 ↔ n ≤ -16376) ∧ (cal n = 2047 ↔ 16376 ≤ n))

/-- Monotonicity (R97): non-decreasing for every number of fraction bits; at `IN_F` = 14 in steps of 0 or 1 and onto 0 to 2047. -/
def Obligations.CalIsMonotoneAndOnto : Prop :=
  (∀ (inF : Nat) (n m : Int), n ≤ m → calAt inF n ≤ calAt inF m) ∧
  (∀ n : Int, cal (n + 1) - cal n = 0 ∨ cal (n + 1) - cal n = 1) ∧
  (∀ p : Int, 0 ≤ p → p ≤ 2047 → ∃ n : Int, -16384 ≤ n ∧ n ≤ 16384 ∧ cal n = p)

/-- Reflection (R98): opposite inputs sum to 2047, but the input 0 with itself to 2048. -/
def Obligations.CalReflects : Prop :=
  (∀ (inF : Nat) (n : Int), n ≠ 0 → calAt inF n + calAt inF (-n) = 2047) ∧
  (∀ inF : Nat, calAt inF 0 + calAt inF (-0) = 2048) ∧
  cal (-1) = 1023 ∧ cal 0 = 1024 ∧ cal 1 = 1024

/-- The inputs of each output value at `IN_F` = 14 (the interval of R99, extended beyond the range at its two ends). -/
def Obligations.CalPreimagesAreIntervals : Prop :=
  ∀ (p n : Int), 0 ≤ p → p ≤ 2047 →
    (-16384 ≤ n → n ≤ 16384 →
      (cal n = p ↔ max (-16384) (⌈((2 * p - 1) * 16384 : ℚ) / 2047⌉ - 16384) ≤ n ∧
        n ≤ min 16384 (⌈((2 * p + 1) * 16384 : ℚ) / 2047⌉ - 16385))) ∧
    (n < -16384 → (cal n = p ↔ p = 0)) ∧ (16384 < n → (cal n = p ↔ p = 2047))

/-- The widths of the intermediates (R100): no datapath of these widths overflows. -/
def Obligations.CalIntermediatesFit : Prop :=
  (∀ (inF : Nat) (n : Int),
    -(2 ^ (inF + 1)) ≤ clamp n (-(2 ^ inF)) (2 ^ inF) ∧ clamp n (-(2 ^ inF)) (2 ^ inF) < 2 ^ (inF + 1) ∧
    0 ≤ calU inF n ∧ calU inF n ≤ 2 ^ (inF + 1) ∧
    0 < calT inF n ∧ calT inF n < 2 ^ (inF + 12)) ∧
  (∀ n : Int, calT 14 n ≤ 67092480) ∧ calT 14 16384 = 67092480

/-! ### The encoder -/

/-- Masking (R110): the encoder uses each channel input modulo 2048, by truncation, and an input beyond 11 bits is sent as its low 11
bits. -/
def Obligations.EncoderMasksByTruncation : Prop :=
  (∀ x : Nat, (mask11 x).toNat = x % 2048 ∧ (x ≤ 2047 → (mask11 x).toNat = x) ∧
    ∀ j : Nat, j < 11 → (mask11 x).getLsbD j = x.testBit j) ∧
  (∀ (x : Vector Nat 16) (flags : Byte),
    encodeFrame x flags = encodeFrame (Vector.ofFn fun k : Fin 16 => x[k] % 2048) flags) ∧
  mask11 2048 = 0#11 ∧ mask11 2049 = 1#11 ∧ mask11 0xFFFF = 0x7FF#11 ∧ mask11 0xF801 = 1#11

/-- ENC (R120) with the bit positions of R43: start byte, bit `j` of channel `k` at bit `(11k + j) mod 8` of frame byte
`1 + (11k + j) div 8`, flags byte, end byte; `FR_VALID` is 1 and nothing else changes, for all operands in every state; opcode `100` presents it. -/
def Obligations.EncPlacesEveryChannelBit : Prop :=
  (∀ (ch : Vector ChannelWord 16) (flags : Byte) (s : State), ∃ t : State, exec (.enc ch flags) s = .next t ∧
    t.fr[0] = 0x0F#8 ∧ t.fr[23] = flags ∧ t.fr[24] = 0x00#8 ∧
    (∀ (k : Fin 16) (j : Fin 11),
      (t.fr[1 + (11 * k.val + j.val) / 8]'(by omega)).getLsbD ((11 * k.val + j.val) % 8) = ch[k].getLsbD j.val) ∧
    t.frValid = true ∧ t = { s with fr := t.fr, frValid := true }) ∧
  (∀ p : Ports, p.op = 0b100#3 → decode p = .enc p.encCh p.encFlags)

/-- The composition of each payload byte, as the table of R67 gives it, for channel inputs of any size. -/
def Obligations.PayloadBytesFollowTheTable : Prop :=
  ∀ (x : Vector Nat 16) (flags : Byte),
    let c : Fin 16 → Nat := fun k => x[k] % 2048
    let fr := encodeFrame x flags
    fr[1].toNat = bitSlice (c 0) 7 0 ∧
    fr[2].toNat = bitSlice (c 0) 10 8 ||| (bitSlice (c 1) 4 0 <<< 3) ∧
    fr[3].toNat = bitSlice (c 1) 10 5 ||| (bitSlice (c 2) 1 0 <<< 6) ∧
    fr[4].toNat = bitSlice (c 2) 9 2 ∧
    fr[5].toNat = bitSlice (c 2) 10 10 ||| (bitSlice (c 3) 6 0 <<< 1) ∧
    fr[6].toNat = bitSlice (c 3) 10 7 ||| (bitSlice (c 4) 3 0 <<< 4) ∧
    fr[7].toNat = bitSlice (c 4) 10 4 ||| (bitSlice (c 5) 0 0 <<< 7) ∧
    fr[8].toNat = bitSlice (c 5) 8 1 ∧
    fr[9].toNat = bitSlice (c 5) 10 9 ||| (bitSlice (c 6) 5 0 <<< 2) ∧
    fr[10].toNat = bitSlice (c 6) 10 6 ||| (bitSlice (c 7) 2 0 <<< 5) ∧
    fr[11].toNat = bitSlice (c 7) 10 3 ∧
    fr[12].toNat = bitSlice (c 8) 7 0 ∧
    fr[13].toNat = bitSlice (c 8) 10 8 ||| (bitSlice (c 9) 4 0 <<< 3) ∧
    fr[14].toNat = bitSlice (c 9) 10 5 ||| (bitSlice (c 10) 1 0 <<< 6) ∧
    fr[15].toNat = bitSlice (c 10) 9 2 ∧
    fr[16].toNat = bitSlice (c 10) 10 10 ||| (bitSlice (c 11) 6 0 <<< 1) ∧
    fr[17].toNat = bitSlice (c 11) 10 7 ||| (bitSlice (c 12) 3 0 <<< 4) ∧
    fr[18].toNat = bitSlice (c 12) 10 4 ||| (bitSlice (c 13) 0 0 <<< 7) ∧
    fr[19].toNat = bitSlice (c 13) 8 1 ∧
    fr[20].toNat = bitSlice (c 13) 10 9 ||| (bitSlice (c 14) 5 0 <<< 2) ∧
    fr[21].toNat = bitSlice (c 14) 10 6 ||| (bitSlice (c 15) 2 0 <<< 5) ∧
    fr[22].toNat = bitSlice (c 15) 10 3

/-- Round trip (R117, R119): unpacking the payload of a frame gives the masked channels; packing an unpacked payload gives the payload, and no other
ChannelSet packs to it; on 11-bit channels the frame determines the ChannelSet and the flags. -/
def Obligations.FrameRoundTrip : Prop :=
  (∀ (x : Vector Nat 16) (flags : Byte) (k : Fin 16),
    (unpack (payloadOf (encodeFrame x flags)))[k].toNat = x[k] % 2048) ∧
  (∀ payload : Payload, pack (unpack payload) = payload ∧ ∀ chans : ChannelSet, pack chans = payload → chans = unpack payload) ∧
  (∀ (c d : ChannelSet) (f g : Byte),
    encodeFrame (channelInts c) f = encodeFrame (channelInts d) g → c = d ∧ f = g)

/-- Lane independence (R112): changing one channel input changes no bit of the frame outside that channel's eleven, and so no byte outside
the two or three it spans. -/
def Obligations.LanesAreIndependent : Prop :=
  ∀ (x y : Vector Nat 16) (flags : Byte) (k : Fin 16), (∀ j : Fin 16, j ≠ k → x[j] = y[j]) →
    (∀ (i : Fin 22) (m : Fin 8), (8 * i.val + m.val) / 11 ≠ k.val →
      (encodeFrame x flags)[i.val + 1].getLsbD m.val = (encodeFrame y flags)[i.val + 1].getLsbD m.val) ∧
    (∀ i : Fin 25, (i.val < 1 + 11 * k.val / 8 ∨ 1 + (11 * k.val + 10) / 8 < i.val) →
      (encodeFrame x flags)[i] = (encodeFrame y flags)[i])

/-- The payload is the bitstream stored little-endian (R43): both are one and the same integer. -/
def Obligations.PayloadIsTheStreamLittleEndian : Prop :=
  ∀ chans : ChannelSet,
    (∑ i : Fin 22, (pack chans)[i].toNat * 2 ^ (8 * i.val)) = ∑ k : Fin 16, chans[k].toNat * 2 ^ (11 * k.val)

/-! ### The axis store, the snapshot and the tick -/

/-- UPD (R131): the selected axes take their new values bit for bit, the others keep theirs, nothing else changes, for every mask and values
in every state, as an operation and as opcode `001` on the ports. -/
def Obligations.UpdWritesTheSelectedAxes : Prop :=
  (∀ (mask : AxisMask) (vals : Vector AxisWord 4) (s : State), ∃ t : State, exec (.upd mask vals) s = .next t ∧
    (∀ i : Fin 4, t.ax[i] = if mask.getLsbD i.val then vals[i] else s.ax[i]) ∧ t = { s with ax := t.ax }) ∧
  (∀ (p : Ports) (s : State), p.op = 0b001#3 → ∃ t : State, exec (decode p) s = .next t ∧
    (∀ i : Fin 4, t.ax[i] = if p.updMask.getLsbD i.val then p.updVal[i] else s.ax[i]) ∧ t = { s with ax := t.ax })

/-- Two UPDs with disjoint masks commute, and two that share an axis do not in general (R132 (b)). -/
def Obligations.DisjointUpdsCommute : Prop :=
  (∀ (m n : AxisMask) (v w : Vector AxisWord 4) (s : State), m &&& n = 0#4 →
    ∃ t u r : State, exec (.upd m v) s = .next t ∧ exec (.upd n w) t = .next r ∧
      exec (.upd n w) s = .next u ∧ exec (.upd m v) u = .next r) ∧
  (∃ (m n : AxisMask) (v w : Vector AxisWord 4), ∀ s : State, ∃ t u r r' : State,
    exec (.upd m v) s = .next t ∧ exec (.upd n w) t = .next r ∧
      exec (.upd n w) s = .next u ∧ exec (.upd m v) u = .next r' ∧ r ≠ r')

/-- SNAP (R134, R133): entries 0 to 3 are the calibrated axes, entries 4 to 15 are 1024, `CS_VALID` is 1 and nothing else changes, in every
state; opcode `011` presents it. -/
def Obligations.SnapLatchesTheChannelSet : Prop :=
  (∀ s : State, ∃ t : State, exec .snap s = .next t ∧
    (∀ (k : Nat) (h : k < 4), (t.cs[k].toNat : Int) =
      ((max (-16384) (min s.ax[k].toInt 16384) + 16384) * 2047 + 16384) / 2 ^ 15) ∧
    (∀ k : Fin 16, 4 ≤ k.val → t.cs[k] = 1024#11) ∧
    t.csValid = true ∧ t = { s with cs := t.cs, csValid := true }) ∧
  (∀ p : Ports, p.op = 0b011#3 → decode p = .snap)

/-- TICK (R137): the ChannelSet is latched as SNAP does, the frame is its encoding with flags 0, both valid bits are 1 and nothing else
changes, in every state; opcode `101` presents it. -/
def Obligations.TickLatchesSnapshotAndFrame : Prop :=
  (∀ s : State, ∃ t : State, exec .tick s = .next t ∧
    (∀ (k : Nat) (h : k < 4), (t.cs[k].toNat : Int) =
      ((max (-16384) (min s.ax[k].toInt 16384) + 16384) * 2047 + 16384) / 2 ^ 15) ∧
    (∀ k : Fin 16, 4 ≤ k.val → t.cs[k] = 1024#11) ∧
    t.fr[0] = 0x0F#8 ∧ t.fr[23] = 0x00#8 ∧ t.fr[24] = 0x00#8 ∧
    (∀ (k : Fin 16) (j : Fin 11),
      (t.fr[1 + (11 * k.val + j.val) / 8]'(by omega)).getLsbD ((11 * k.val + j.val) % 8) = t.cs[k].getLsbD j.val) ∧
    t.csValid = true ∧ t.frValid = true ∧ t = { s with cs := t.cs, csValid := true, fr := t.fr, frValid := true }) ∧
  (∀ p : Ports, p.op = 0b101#3 → decode p = .tick)

/-- TICK has the effect of SNAP followed by an ENC of the new `CS`, zero-extended, with flags 0 (R138). -/
def Obligations.TickIsSnapThenEnc : Prop :=
  ∀ s : State, ∃ t u : State, exec .snap s = .next t ∧
    exec (.enc (Vector.ofFn fun k : Fin 16 => t.cs[k].setWidth 16) 0x00#8) t = .next u ∧ exec .tick s = .next u

/-- Frame bytes 7 to 24 after every TICK, whatever the axes hold (the corner cases of R137 and the table V-STO). -/
def Obligations.TickFrameTailIsConstant : Prop :=
  ∀ s : State, ∃ t : State, exec .tick s = .next t ∧
    t.fr.toList.drop 7 = [0x40#8, 0x00#8, 0x02#8, 0x10#8, 0x80#8, 0x00#8, 0x04#8, 0x20#8, 0x00#8, 0x01#8, 0x08#8, 0x40#8, 0x00#8,
      0x02#8, 0x10#8, 0x80#8, 0x00#8, 0x00#8]

/-- NOP and the reserved opcodes change nothing, in every state, and are what the opcodes `000`, `110` and `111` present, whatever the operand
ports carry (R130, R140). -/
def Obligations.IdleAndReservedChangeNothing : Prop :=
  (∀ s : State, exec .nop s = .next s ∧ exec .rsv6 s = .next s ∧ exec .rsv7 s = .next s) ∧
  (∀ p : Ports, (p.op = 0b000#3 → decode p = .nop) ∧ (p.op = 0b110#3 → decode p = .rsv6) ∧ (p.op = 0b111#3 → decode p = .rsv7))

/-- The document's end-to-end property, corrected (R139), from any state: throttle set to 0.5, then a TICK, gives a frame whose unpacked channel
3 is 1535, whose channels 0 to 2 are the calibrated other axes and whose channels 4 to 15 are 1024; where the other axes are at 0.0, channels
0 to 2 are 1024. -/
def Obligations.ThrottleHalfReachesTheFrame : Prop :=
  ∀ s : State, ∃ t u : State,
    exec (.upd 0b1000#4 #v[0#16, 0#16, 0#16, 8192#16]) s = .next t ∧ exec .tick t = .next u ∧
    (unpack (payloadOf u.fr))[3] = 1535#11 ∧
    (∀ k : Fin 16, 4 ≤ k.val → (unpack (payloadOf u.fr))[k] = 1024#11) ∧
    (∀ (k : Nat) (h : k < 3), ((unpack (payloadOf u.fr))[k].toNat : Int) = cal (sext s.ax[k])) ∧
    (∀ (k : Nat) (h : k < 3), s.ax[k] = 0#16 → (unpack (payloadOf u.fr))[k] = 1024#11)

/-! ### The whole machine -/

/-- No operation and no step faults or refuses, for any operand, in any state (R150, R13). -/
def Obligations.EveryOperationCompletes : Prop :=
  (∀ (i : Instr) (s : State), ∃ t : State, exec i s = .next t) ∧ (∀ s : State, ∃ t : State, step s = .next t)

/-- Only UPD writes AX, only CAL writes PV and PV_VALID, only SNAP and TICK write CS and CS_VALID, only ENC and TICK write FR and FR_VALID
(R21, R22, R24, R25, R26). -/
def Obligations.OnlyTheOwnersWriteARegister : Prop :=
  ∀ (i : Instr) (s t : State), exec i s = .next t →
    (t.ax ≠ s.ax → ∃ mask vals, i = .upd mask vals) ∧
    (t.pv ≠ s.pv ∨ t.pvValid ≠ s.pvValid → ∃ v, i = .cal v) ∧
    (t.cs ≠ s.cs ∨ t.csValid ≠ s.csValid → i = .snap ∨ i = .tick) ∧
    (t.fr ≠ s.fr ∨ t.frValid ≠ s.frValid → (∃ ch flags, i = .enc ch flags) ∨ i = .tick)

/-- Idempotence (R46): performing an operation twice in a row leaves the state that performing it once leaves. -/
def Obligations.OperationsAreIdempotent : Prop :=
  ∀ (i : Instr) (s t : State), exec i s = .next t → exec i t = .next t

/-- Only SNAP and TICK read AX (R21): for every other operation the results and the valid bits do not depend on the axes, and an operation other
than UPD leaves whatever axes it finds. -/
def Obligations.OnlySnapAndTickReadTheAxes : Prop :=
  ∀ (i : Instr) (a : Axes) (s t : State), i ≠ .snap → i ≠ .tick → exec i s = .next t →
    ∃ t' : State, exec i { s with ax := a } = .next t' ∧ t' = { t with ax := t'.ax } ∧
      ((∀ mask vals, i ≠ .upd mask vals) → t'.ax = a)

/-- No operation's result depends on a valid bit (R27). -/
def Obligations.NoResultDependsOnAValidBit : Prop :=
  ∀ (i : Instr) (b1 b2 b3 : Bool) (s t : State), exec i s = .next t →
    ∃ t' : State, exec i { s with pvValid := b1, csValid := b2, frValid := b3 } = .next t' ∧
      t'.ax = t.ax ∧ t'.pv = t.pv ∧ t'.cs = t.cs ∧ t'.fr = t.fr

/-- Last write wins per axis (R132 (a), R49 (a)): after any run without reset, from any state, each axis holds the value of the latest UPD that
selects it, or what it held before. A run is a list of samples (log 1). -/
def Obligations.LastWriteWinsPerAxis : Prop :=
  ∀ (ps : List Ports) (s : State), withoutReset ps →
    ∃ t : State, drive ps s = .next t ∧ ∀ i : Fin 4, t.ax[i] = (lastWrite i ps).getD s.ax[i]

/-- A SNAP or TICK sees every earlier update and no torn one (R49 (a), R52, R135): after any run without reset, its ChannelSet is the calibration
of each axis's latest value, with 1024 in the other entries, and the frame of a TICK unpacks to it (R137, R117). A run is a list of samples
(log 1). -/
def Obligations.SnapshotSeesEveryEarlierUpdate : Prop :=
  ∀ (ps : List Ports) (p : Ports) (s : State), withoutReset ps → p.rst = false → (p.op = 0b011#3 ∨ p.op = 0b101#3) →
    ∃ t : State, drive (ps ++ [p]) s = .next t ∧ t.csValid = true ∧
      (∀ (k : Nat) (h : k < 4), (t.cs[k].toNat : Int) = cal (sext ((lastWrite ⟨k, h⟩ ps).getD s.ax[k]))) ∧
      (∀ k : Fin 16, 4 ≤ k.val → t.cs[k] = 1024#11) ∧
      (p.op = 0b101#3 → t.frValid = true ∧ unpack (payloadOf t.fr) = t.cs)

/-- The valid bits record what was performed (R24, R25, R26, R27): over any run without reset each is 1 if and only if it was or one of its
operations was presented. A run is a list of samples (log 1). -/
def Obligations.ValidBitsRecordTheOperations : Prop :=
  ∀ (ps : List Ports) (s : State), withoutReset ps →
    ∃ t : State, drive ps s = .next t ∧
      (t.pvValid = true ↔ s.pvValid = true ∨ ∃ p ∈ ps, p.op = 0b010#3) ∧
      (t.csValid = true ↔ s.csValid = true ∨ ∃ p ∈ ps, p.op = 0b011#3 ∨ p.op = 0b101#3) ∧
      (t.frValid = true ↔ s.frValid = true ∨ ∃ p ∈ ps, p.op = 0b100#3 ∨ p.op = 0b101#3)

/-- The invariant of the result registers holds at reset (R25, R26, R32). -/
def Obligations.InvariantHoldsAtReset : Prop := State.reset.Inv

/-- Every step keeps the invariant of the result registers, from every state that meets it (R25, R26): a valid ChannelSet is neutral in positions
4 to 15, a valid frame begins with 0x0F and ends with 0x00. -/
def Obligations.StepKeepsTheInvariant : Prop :=
  ∀ s t : State, s.Inv → step s = .next t → t.Inv

/-- What a register holds while its valid bit is 0 never reaches anything a host may observe (R31, R32, U6): two states that differ only there,
presented the same sample, step to two states that differ only there. -/
def Obligations.InvalidContentsNeverFlowOut : Prop :=
  ∀ s s' t : State, s.Alike s' → s.presented = s'.presented → step s = .next t →
    ∃ t' : State, step s' = .next t' ∧ t.Alike t'

/-- After a reset nothing from before it can be observed (R171): from any two states, a reset followed by the same samples gives the same
observations, refused or not. A run is a list of samples (log 1), and that the contents of a register which is not valid are refused, not
answered, is the model's choice (log 9). -/
def Obligations.ResetForgetsEverythingObservable : Prop :=
  ∀ (p : Ports) (ps : List Ports) (s s' : State), p.rst = true →
    ∃ t t' : State, drive (p :: ps) s = .next t ∧ drive (p :: ps) s' = .next t' ∧
      t.ax = t'.ax ∧ t.observePv = t'.observePv ∧ t.observeCs = t'.observeCs ∧ t.observeFrame = t'.observeFrame ∧
      ∀ a n : Nat, t.memRead a n = t'.memRead a n

/-! ### Observation and the host's duties -/

/-- Observing a result register answers its contents when its valid bit is 1 and is refused when it is 0 (R177); a `MemRead` inside the frame answers
those frame bytes while `FR_VALID` is 1, and beyond byte 24, where it is not defined, it is refused (R11, R41, R47). To refuse what is not valid
rather than answer any value, and the refusal's name, are the model's choice (log 9); so is the named refusal beyond byte 24, whichever value
`FR_VALID` has (log 10). -/
def Obligations.ObservationNeedsAValidResult : Prop :=
  ∀ s : State,
    (s.pvValid = true → s.observePv = .ok s.pv) ∧ (s.pvValid = false → s.observePv = .error (.resultNotValid .pvOut)) ∧
    (s.csValid = true → s.observeCs = .ok s.cs) ∧ (s.csValid = false → s.observeCs = .error (.resultNotValid .csOut)) ∧
    (s.frValid = true → s.observeFrame = .ok s.fr) ∧
    (s.frValid = false → s.observeFrame = .error (.resultNotValid .frameOut)) ∧
    (∀ a n : Nat, a + n ≤ 25 →
      (s.frValid = false → s.memRead a n = .error (.resultNotValid .frameOut)) ∧
      (s.frValid = true → ∃ bytes : List Byte, s.memRead a n = .ok bytes ∧ bytes.length = n ∧
        ∀ i : Nat, i < n → bytes[i]? = s.fr[a + i]?)) ∧
    (∀ a n : Nat, 25 < a + n → s.memRead a n = .error (.frameIndexAbsent a n))

/-- A host that keeps its duty (no ENC, TICK or reset while it sends, R176) reads one and the same frame at every step of the stretch, byte by
byte or whole. A run is a list of samples (log 1). -/
def Obligations.FrameIsStableWhileSending : Prop :=
  ∀ (ps : List Ports) (n : Nat) (s : State), sendsWhole ps → n ≤ ps.length →
    ∃ t : State, drive (ps.take n) s = .next t ∧ t.observeFrame = s.observeFrame ∧
      ∀ a len : Nat, t.memRead a len = s.memRead a len

/-! ### The textual form -/

/-- The pseudo-operations do what they stand for (R77): SETAX sets its one axis and leaves the others, CENTER sets all four to 0.0, ENCN encodes the
all-neutral ChannelSet with its flags. -/
def Obligations.PseudoOperationsExpand : Prop :=
  (∀ (name : AxisName) (v : AxisLit) (w : AxisWord), v.word = .ok w →
    ∃ i : Instr, Asm.toInstr (.setax name v) = .ok i ∧ ∀ s : State, ∃ t : State, exec i s = .next t ∧
      t.ax[axisIndex name] = w ∧ (∀ j : Fin 4, j ≠ axisIndex name → t.ax[j] = s.ax[j]) ∧ t = { s with ax := t.ax }) ∧
  (∃ i : Instr, Asm.toInstr .center = .ok i ∧ ∀ s : State, ∃ t : State, exec i s = .next t ∧
    (∀ j : Fin 4, sext t.ax[j] = 0) ∧ t = { s with ax := t.ax }) ∧
  (∀ flags : Byte, ∃ i : Instr, Asm.toInstr (.encn flags.toNat) = .ok i ∧ ∀ s : State, ∃ t : State, exec i s = .next t ∧
    t.fr = #v[0x0F#8, 0x00#8, 0x04#8, 0x20#8, 0x00#8, 0x01#8, 0x08#8, 0x40#8, 0x00#8, 0x02#8, 0x10#8, 0x80#8, 0x00#8, 0x04#8, 0x20#8,
      0x00#8, 0x01#8, 0x08#8, 0x40#8, 0x00#8, 0x02#8, 0x10#8, 0x80#8, flags, 0x00#8] ∧ t.frValid = true)

/-- A real literal `#r` is accepted exactly when the axis format holds `r` without rounding, and then it is that pattern (R76). -/
def Obligations.RealLiteralsAreExact : Prop :=
  ∀ r : ℚ,
    (∀ w : AxisWord, (AxisLit.real r).word = .ok w ↔ (w.toInt : ℚ) = r * 2 ^ 14) ∧
    ((¬ ∃ n : Int, (n : ℚ) = r * 2 ^ 14) → (AxisLit.real r).word = .error .notRepresentable)

/-- Every operation the assembler answers is a canonical term, so its commands decode back to it (R76, R77, log 11). -/
def Obligations.AssembledOperationsAreCanonical : Prop :=
  ∀ (a : Asm) (i : Instr), a.toInstr = .ok i → i.wellFormed = true ∧ decode (encode i) = i
end

