-- ==== Sys2Proof/Laws/Operands.lean ====
section
/-! SUPPORT. What the operand forms are in Lean's own terms. -/

namespace Sys2Proof.Machine

/-- `sext_N` is the two's-complement value of the pattern. -/
theorem sext_eq_toInt {w : Nat} (b : BitVec w) : sext b = b.toInt := by
  rw [sext, BitVec.toInt_eq_msb_cond, BitVec.msb_eq_getLsbD_last]
  norm_cast

@[simp] theorem zext_eq_toNat {w : Nat} (b : BitVec w) : zext b = b.toNat := rfl

@[simp] theorem toNat_mask11 (x : Nat) : (mask11 x).toNat = x % 2048 := by
  simp [mask11]

/-- Masking a value that already has 11 bits changes nothing. -/
@[simp] theorem mask11_toNat (v : ProtocolValue) : mask11 v.toNat = v := by
  apply BitVec.eq_of_toNat_eq
  rw [toNat_mask11, Nat.mod_eq_of_lt v.isLt]

@[simp] theorem getElem_channelOperands (ch : Vector ChannelWord 16) (k : Nat) (h : k < 16) :
    (channelOperands ch)[k] = ch[k].toNat := by
  simp [channelOperands]

/-- The clamp is the usual lattice one where its bounds are in order. -/
theorem clamp_eq_max_min (x lo hi : Int) (h : lo ≤ hi) : clamp x lo hi = max lo (min x hi) := by
  unfold clamp
  split <;> (try split) <;> omega

theorem toInt_toProtocolValue_toNat (n : Int) (h0 : 0 ≤ n) (h1 : n < 2048) :
    ((toProtocolValue n).toNat : Int) = n := by
  simp only [toProtocolValue, BitVec.toNat_ofInt]
  omega

end Sys2Proof.Machine
end

