-- ==== Sys2Proof/Laws/Calibrate.lean ====
section
/-! SUPPORT. The calibrator's integer expression, unfolded once. -/

namespace Sys2Proof.Machine

theorem one_pos (inF : Nat) : 0 < one inF := by
  unfold one
  positivity

/-- `calAt` as one expression in `ONE = 2^inF`. -/
theorem calAt_eq (inF : Nat) (n : Int) :
    calAt inF n = ((clamp n (-one inF) (one inF) + one inF) * 2047 + one inF) / (2 * one inF) := by
  simp only [calAt, shiftRightFloor, calT, calU, one, pow_succ]
  norm_num [mul_comm]

/-- `cal` with the block's numbers in it (R91). -/
theorem cal_eq (n : Int) : cal n = ((max (-16384) (min n 16384) + 16384) * 2047 + 16384) / 32768 := by
  rw [cal, calAt_eq, clamp_eq_max_min _ _ _ (by simp [one])]
  norm_num [one]

end Sys2Proof.Machine
end

