-- ==== Sys2Proof/Laws/Lanes.lean ====
section
/-! SUPPORT. What `concatLanes` and `sliceLane` do, bit by bit, and that they are inverse to each other. -/

namespace Sys2Proof.Machine

theorem getLsbD_sliceLane (w p k j : Nat) :
    (sliceLane w p k).getLsbD j = (decide (j < w) && p.testBit (w * k + j)) := by
  simp [sliceLane, BitVec.getLsbD_ofNat, Nat.testBit_shiftRight]

@[simp] theorem getElem_sliceLanes (w n p k : Nat) (h : k < n) : (sliceLanes w n p)[k] = sliceLane w p k := by
  simp [sliceLanes]

theorem testBit_foldl_or {α : Type} (f : α → Nat) (l : List α) (acc s : Nat) :
    (l.foldl (fun p k => p ||| f k) acc).testBit s = (acc.testBit s || l.any fun k => (f k).testBit s) := by
  induction l generalizing acc with
  | nil => simp
  | cons a l ih => simp [ih, Nat.testBit_or, Bool.or_assoc]

/-- A stream bit inside lane `k` is that lane's bit. -/
theorem testBit_concatLanes {w n : Nat} (lanes : Vector (BitVec w) n) (k : Fin n) (j : Nat) (hj : j < w) :
    (concatLanes lanes).testBit (w * k.val + j) = lanes[k].getLsbD j := by
  rw [concatLanes, testBit_foldl_or, Nat.zero_testBit, Bool.false_or, Bool.eq_iff_iff, List.any_eq_true]
  constructor
  · rintro ⟨m, -, hm⟩
    rw [Nat.testBit_shiftLeft, Bool.and_eq_true, decide_eq_true_eq] at hm
    obtain ⟨hle, hbit⟩ := hm
    have hlt : w * k.val + j - w * m.val < w := by
      by_contra hge
      have := BitVec.getLsbD_of_ge lanes[m] (w * k.val + j - w * m.val) (Nat.le_of_not_lt hge)
      exact Bool.false_ne_true (this.symm.trans hbit)
    have hkm : m.val = k.val := by
      have h1 : (w * k.val + j) / w = k.val := by
        rw [Nat.mul_add_div (by omega), Nat.div_eq_of_lt hj, Nat.add_zero]
      have h2 : (w * m.val + (w * k.val + j - w * m.val)) / w = m.val := by
        rw [Nat.mul_add_div (by omega), Nat.div_eq_of_lt hlt, Nat.add_zero]
      rw [Nat.add_sub_cancel' hle] at h2
      exact h2.symm.trans h1
    obtain rfl : m = k := Fin.ext hkm
    simpa [BitVec.getLsbD] using hbit
  · intro h
    refine ⟨k, List.mem_finRange k, ?_⟩
    simpa [Nat.testBit_shiftLeft, BitVec.getLsbD] using h

/-- No stream bit stands above the last lane. -/
theorem concatLanes_lt {w n : Nat} (lanes : Vector (BitVec w) n) : concatLanes lanes < 2 ^ (w * n) := by
  have key : ∀ (l : List (Fin n)) (acc : Nat), acc < 2 ^ (w * n) →
      l.foldl (fun p k => p ||| (lanes[k].toNat <<< (w * k.val))) acc < 2 ^ (w * n) := by
    intro l
    induction l with
    | nil => intro acc h; exact h
    | cons k l ih =>
      intro acc h
      refine ih _ (Nat.or_lt_two_pow h ?_)
      have hk : w * k.val + w ≤ w * n := by
        rw [← Nat.mul_succ]
        exact Nat.mul_le_mul_left w k.isLt
      calc lanes[k].toNat <<< (w * k.val) = lanes[k].toNat * 2 ^ (w * k.val) := Nat.shiftLeft_eq _ _
        _ < 2 ^ w * 2 ^ (w * k.val) := Nat.mul_lt_mul_of_pos_right lanes[k].isLt (Nat.two_pow_pos _)
        _ = 2 ^ (w * k.val + w) := by rw [Nat.pow_add, Nat.mul_comm]
        _ ≤ 2 ^ (w * n) := Nat.pow_le_pow_right (by decide) hk
  exact key _ 0 (Nat.two_pow_pos _)

/-- Slicing a concatenation gives the lane back. -/
theorem sliceLane_concatLanes {w n : Nat} (lanes : Vector (BitVec w) n) (k : Fin n) :
    sliceLane w (concatLanes lanes) k.val = lanes[k] := by
  refine BitVec.eq_of_getLsbD_eq fun j hj => ?_
  rw [getLsbD_sliceLane, testBit_concatLanes lanes k j hj]
  simp [hj]

theorem sliceLanes_concatLanes {w n : Nat} (lanes : Vector (BitVec w) n) :
    sliceLanes w n (concatLanes lanes) = lanes := by
  ext1 k hk
  rw [getElem_sliceLanes]
  exact sliceLane_concatLanes lanes ⟨k, hk⟩

/-- Concatenating the slices of an integer that fits gives the integer back. -/
theorem concatLanes_sliceLanes (w n p : Nat) (hw : 0 < w) (hp : p < 2 ^ (w * n)) :
    concatLanes (sliceLanes w n p) = p := by
  refine Nat.eq_of_testBit_eq fun s => ?_
  by_cases hs : s < w * n
  · have hk : s / w < n := Nat.div_lt_of_lt_mul hs
    have h := testBit_concatLanes (sliceLanes w n p) ⟨s / w, hk⟩ (s % w) (Nat.mod_lt s hw)
    rw [Nat.div_add_mod] at h
    rw [h]
    have hg : (sliceLanes w n p)[(⟨s / w, hk⟩ : Fin n)] = sliceLane w p (s / w) := getElem_sliceLanes w n p (s / w) hk
    rw [hg, getLsbD_sliceLane, Nat.div_add_mod]
    simp [Nat.mod_lt s hw]
  · have hle : 2 ^ (w * n) ≤ 2 ^ s := Nat.pow_le_pow_right (by decide) (Nat.le_of_not_lt hs)
    rw [Nat.testBit_lt_two_pow (Nat.lt_of_lt_of_le (concatLanes_lt _) hle),
      Nat.testBit_lt_two_pow (Nat.lt_of_lt_of_le hp hle)]

end Sys2Proof.Machine
end

