-- ==== Sys2Proof/Laws/Decode.lean ====
section
/-! SUPPORT. The decoder row by row, and the canonical form of a UPD. -/

namespace Sys2Proof

theorem decode_of_op_nop (p : Ports) (h : p.op = 0b000#3) : decode p = .nop := by simp [decode, h]
theorem decode_of_op_upd (p : Ports) (h : p.op = 0b001#3) :
    decode p = .upd p.updMask (updCanonicalVals p.updMask p.updVal) := by simp [decode, h]
theorem decode_of_op_cal (p : Ports) (h : p.op = 0b010#3) : decode p = .cal p.calIn := by simp [decode, h]
theorem decode_of_op_snap (p : Ports) (h : p.op = 0b011#3) : decode p = .snap := by simp [decode, h]
theorem decode_of_op_enc (p : Ports) (h : p.op = 0b100#3) : decode p = .enc p.encCh p.encFlags := by simp [decode, h]
theorem decode_of_op_tick (p : Ports) (h : p.op = 0b101#3) : decode p = .tick := by simp [decode, h]
theorem decode_of_op_rsv6 (p : Ports) (h : p.op = 0b110#3) : decode p = .rsv6 := by simp [decode, h]
theorem decode_of_op_rsv7 (p : Ports) (h : p.op = 0b111#3) : decode p = .rsv7 := by simp [decode, h]

/-- Every opcode is one of the eight rows. -/
theorem opcode_cases (op : Opcode) :
    op = 0b000#3 ∨ op = 0b001#3 ∨ op = 0b010#3 ∨ op = 0b011#3 ∨ op = 0b100#3 ∨ op = 0b101#3 ∨ op = 0b110#3 ∨ op = 0b111#3 := by
  revert op
  decide

/-- What a sample of the ports can present, said once. -/
theorem decode_cases (p : Ports) :
    (p.op = 0b000#3 ∧ decode p = .nop) ∨
    (p.op = 0b001#3 ∧ decode p = .upd p.updMask (updCanonicalVals p.updMask p.updVal)) ∨
    (p.op = 0b010#3 ∧ decode p = .cal p.calIn) ∨ (p.op = 0b011#3 ∧ decode p = .snap) ∨
    (p.op = 0b100#3 ∧ decode p = .enc p.encCh p.encFlags) ∨ (p.op = 0b101#3 ∧ decode p = .tick) ∨
    (p.op = 0b110#3 ∧ decode p = .rsv6) ∨ (p.op = 0b111#3 ∧ decode p = .rsv7) := by
  rcases opcode_cases p.op with h | h | h | h | h | h | h | h <;> simp [decode, h]

@[simp] theorem getElem_updCanonicalVals (mask : AxisMask) (vals : Vector AxisWord 4) (i : Nat) (h : i < 4) :
    (updCanonicalVals mask vals)[i] = if mask.getLsbD i then vals[i] else 0#16 := by
  rw [updCanonicalVals, Vector.getElem_ofFn]
  rfl

/-- A canonical UPD is unchanged by the canonical form. -/
theorem updCanonicalVals_of_wellFormed (mask : AxisMask) (vals : Vector AxisWord 4)
    (h : (Instr.upd mask vals).wellFormed = true) : updCanonicalVals mask vals = vals := by
  simp only [Instr.wellFormed, List.all_eq_true, List.mem_finRange, forall_const, updLaneCanonical, Bool.or_eq_true,
    beq_iff_eq] at h
  ext1 i hi
  rw [getElem_updCanonicalVals]
  have := h ⟨i, hi⟩
  split
  · rfl
  · next hm => exact ((this.resolve_left (by simpa using hm))).symm

end Sys2Proof
end

