-- ==== Sys2Proof/Laws/Encode.lean ====
section
/-! SUPPORT. What the encoder's pieces give: the frame byte by byte, the payload bit by bit, the snapshot entry by entry. -/

namespace Sys2Proof.Machine

@[simp] theorem getElem_maskChannels (x : Vector Nat 16) (k : Nat) (h : k < 16) : (maskChannels x)[k] = mask11 x[k] := by
  simp [maskChannels]

@[simp] theorem getElem_channelInts (chans : ChannelSet) (k : Nat) (h : k < 16) : (channelInts chans)[k] = chans[k].toNat := by
  simp [channelInts]

/-- Masking the entries of a ChannelSet changes nothing. -/
@[simp] theorem maskChannels_channelInts (chans : ChannelSet) : maskChannels (channelInts chans) = chans := by
  ext1 k hk
  rw [getElem_maskChannels, getElem_channelInts, mask11_toNat]

@[simp] theorem assemble_start (payload : Payload) (flags : Byte) : (assemble payload flags)[0] = Config.START := by
  simp [assemble]

@[simp] theorem assemble_flags (payload : Payload) (flags : Byte) : (assemble payload flags)[23] = flags := by
  simp [assemble]

@[simp] theorem assemble_end (payload : Payload) (flags : Byte) : (assemble payload flags)[24] = Config.END := by
  simp [assemble]

theorem assemble_payload (payload : Payload) (flags : Byte) (i : Nat) (h : i < 22) :
    (assemble payload flags)[i + 1] = payload[i] := by
  have h1 : i + 1 ≤ 22 := by omega
  simp [assemble, h1]

@[simp] theorem payloadOf_assemble (payload : Payload) (flags : Byte) : payloadOf (assemble payload flags) = payload := by
  ext1 i hi
  simpa [payloadOf] using assemble_payload payload flags i hi

/-! The fixed bytes of any encoded frame, and the tick's frame as an encoding. -/

theorem encodeFrame_start (x : Vector Nat 16) (flags : Byte) : (encodeFrame x flags)[0] = Config.START := assemble_start _ _

theorem encodeFrame_flags (x : Vector Nat 16) (flags : Byte) : (encodeFrame x flags)[23] = flags := assemble_flags _ _

theorem encodeFrame_end (x : Vector Nat 16) (flags : Byte) : (encodeFrame x flags)[24] = Config.END := assemble_end _ _

theorem encodeFrame_payload (x : Vector Nat 16) (flags : Byte) (i : Nat) (h : i < 22) :
    (encodeFrame x flags)[i + 1] = (pack (maskChannels x))[i] := assemble_payload _ _ i h

theorem tickFrame_eq (a : Vector Int 4) : tickFrame a = encodeFrame (channelInts (snapshot a)) Config.TICK_FLAGS := rfl

/-- Payload byte `i` bit `m` is stream bit `8i + m`. -/
theorem getLsbD_pack (chans : ChannelSet) (i : Nat) (h : i < 22) (m : Nat) :
    (pack chans)[i].getLsbD m = (decide (m < 8) && (bitstream chans).testBit (8 * i + m)) := by
  simp only [pack, getElem_sliceLanes, getLsbD_sliceLane]

/-- Stream bit `11k + j` is bit `j` of channel `k`. -/
theorem testBit_bitstream (chans : ChannelSet) (k : Nat) (h : k < 16) (j : Nat) (hj : j < 11) :
    (bitstream chans).testBit (11 * k + j) = chans[k].getLsbD j :=
  testBit_concatLanes chans ⟨k, h⟩ j hj

/-- The four calibrated entries of a snapshot. -/
theorem getElem_snapshot_axis (a : Vector Int 4) (k : Nat) (h : k < 4) :
    (snapshot a)[k] = toProtocolValue (cal a[k]) := by
  simp [snapshot, h]

/-- The twelve neutral entries of a snapshot. -/
theorem getElem_snapshot_neutral (a : Vector Int 4) (k : Nat) (h4 : 4 ≤ k) (h : k < 16) :
    (snapshot a)[k] = Config.NEUTRAL := by
  simp [snapshot, Nat.not_lt.mpr h4]

end Sys2Proof.Machine
end

