-- ==== Sys2Proof/Laws/State.lean ====
section
/-! SUPPORT. One lemma per field per update of State, true by rfl, so that no later proof unfolds a record update. -/

namespace Sys2Proof.Machine

/-! ### setPvValid -/

@[simp] theorem State.setPvValid_ax (s : State) : s.setPvValid.ax = s.ax := rfl
@[simp] theorem State.setPvValid_pv (s : State) : s.setPvValid.pv = s.pv := rfl
@[simp] theorem State.setPvValid_pvValid (s : State) : s.setPvValid.pvValid = true := rfl
@[simp] theorem State.setPvValid_cs (s : State) : s.setPvValid.cs = s.cs := rfl
@[simp] theorem State.setPvValid_csValid (s : State) : s.setPvValid.csValid = s.csValid := rfl
@[simp] theorem State.setPvValid_fr (s : State) : s.setPvValid.fr = s.fr := rfl
@[simp] theorem State.setPvValid_frValid (s : State) : s.setPvValid.frValid = s.frValid := rfl
@[simp] theorem State.setPvValid_inputs (s : State) : s.setPvValid.inputs = s.inputs := rfl
@[simp] theorem State.setPvValid_now (s : State) : s.setPvValid.now = s.now := rfl

/-! ### setCsValid -/

@[simp] theorem State.setCsValid_ax (s : State) : s.setCsValid.ax = s.ax := rfl
@[simp] theorem State.setCsValid_pv (s : State) : s.setCsValid.pv = s.pv := rfl
@[simp] theorem State.setCsValid_pvValid (s : State) : s.setCsValid.pvValid = s.pvValid := rfl
@[simp] theorem State.setCsValid_cs (s : State) : s.setCsValid.cs = s.cs := rfl
@[simp] theorem State.setCsValid_csValid (s : State) : s.setCsValid.csValid = true := rfl
@[simp] theorem State.setCsValid_fr (s : State) : s.setCsValid.fr = s.fr := rfl
@[simp] theorem State.setCsValid_frValid (s : State) : s.setCsValid.frValid = s.frValid := rfl
@[simp] theorem State.setCsValid_inputs (s : State) : s.setCsValid.inputs = s.inputs := rfl
@[simp] theorem State.setCsValid_now (s : State) : s.setCsValid.now = s.now := rfl

/-! ### setFrValid -/

@[simp] theorem State.setFrValid_ax (s : State) : s.setFrValid.ax = s.ax := rfl
@[simp] theorem State.setFrValid_pv (s : State) : s.setFrValid.pv = s.pv := rfl
@[simp] theorem State.setFrValid_pvValid (s : State) : s.setFrValid.pvValid = s.pvValid := rfl
@[simp] theorem State.setFrValid_cs (s : State) : s.setFrValid.cs = s.cs := rfl
@[simp] theorem State.setFrValid_csValid (s : State) : s.setFrValid.csValid = s.csValid := rfl
@[simp] theorem State.setFrValid_fr (s : State) : s.setFrValid.fr = s.fr := rfl
@[simp] theorem State.setFrValid_frValid (s : State) : s.setFrValid.frValid = true := rfl
@[simp] theorem State.setFrValid_inputs (s : State) : s.setFrValid.inputs = s.inputs := rfl
@[simp] theorem State.setFrValid_now (s : State) : s.setFrValid.now = s.now := rfl

/-! ### clearValid -/

@[simp] theorem State.clearValid_ax (s : State) : s.clearValid.ax = s.ax := rfl
@[simp] theorem State.clearValid_pv (s : State) : s.clearValid.pv = s.pv := rfl
@[simp] theorem State.clearValid_pvValid (s : State) : s.clearValid.pvValid = false := rfl
@[simp] theorem State.clearValid_cs (s : State) : s.clearValid.cs = s.cs := rfl
@[simp] theorem State.clearValid_csValid (s : State) : s.clearValid.csValid = false := rfl
@[simp] theorem State.clearValid_fr (s : State) : s.clearValid.fr = s.fr := rfl
@[simp] theorem State.clearValid_frValid (s : State) : s.clearValid.frValid = false := rfl
@[simp] theorem State.clearValid_inputs (s : State) : s.clearValid.inputs = s.inputs := rfl
@[simp] theorem State.clearValid_now (s : State) : s.clearValid.now = s.now := rfl

/-! ### writeAx -/

@[simp] theorem State.writeAx_ax (s : State) (mask : AxisMask) (vals : Vector AxisWord 4) : (s.writeAx mask vals).ax = Vector.ofFn fun i => if maskSelects mask i then vals[i] else s.ax[i] := rfl
@[simp] theorem State.writeAx_pv (s : State) (mask : AxisMask) (vals : Vector AxisWord 4) : (s.writeAx mask vals).pv = s.pv := rfl
@[simp] theorem State.writeAx_pvValid (s : State) (mask : AxisMask) (vals : Vector AxisWord 4) : (s.writeAx mask vals).pvValid = s.pvValid := rfl
@[simp] theorem State.writeAx_cs (s : State) (mask : AxisMask) (vals : Vector AxisWord 4) : (s.writeAx mask vals).cs = s.cs := rfl
@[simp] theorem State.writeAx_csValid (s : State) (mask : AxisMask) (vals : Vector AxisWord 4) : (s.writeAx mask vals).csValid = s.csValid := rfl
@[simp] theorem State.writeAx_fr (s : State) (mask : AxisMask) (vals : Vector AxisWord 4) : (s.writeAx mask vals).fr = s.fr := rfl
@[simp] theorem State.writeAx_frValid (s : State) (mask : AxisMask) (vals : Vector AxisWord 4) : (s.writeAx mask vals).frValid = s.frValid := rfl
@[simp] theorem State.writeAx_inputs (s : State) (mask : AxisMask) (vals : Vector AxisWord 4) : (s.writeAx mask vals).inputs = s.inputs := rfl
@[simp] theorem State.writeAx_now (s : State) (mask : AxisMask) (vals : Vector AxisWord 4) : (s.writeAx mask vals).now = s.now := rfl

/-! ### writePv -/

@[simp] theorem State.writePv_ax (s : State) (v : ProtocolValue) : (s.writePv v).ax = s.ax := rfl
@[simp] theorem State.writePv_pv (s : State) (v : ProtocolValue) : (s.writePv v).pv = v := rfl
@[simp] theorem State.writePv_pvValid (s : State) (v : ProtocolValue) : (s.writePv v).pvValid = s.pvValid := rfl
@[simp] theorem State.writePv_cs (s : State) (v : ProtocolValue) : (s.writePv v).cs = s.cs := rfl
@[simp] theorem State.writePv_csValid (s : State) (v : ProtocolValue) : (s.writePv v).csValid = s.csValid := rfl
@[simp] theorem State.writePv_fr (s : State) (v : ProtocolValue) : (s.writePv v).fr = s.fr := rfl
@[simp] theorem State.writePv_frValid (s : State) (v : ProtocolValue) : (s.writePv v).frValid = s.frValid := rfl
@[simp] theorem State.writePv_inputs (s : State) (v : ProtocolValue) : (s.writePv v).inputs = s.inputs := rfl
@[simp] theorem State.writePv_now (s : State) (v : ProtocolValue) : (s.writePv v).now = s.now := rfl

/-! ### writeCs -/

@[simp] theorem State.writeCs_ax (s : State) (v : ChannelSet) : (s.writeCs v).ax = s.ax := rfl
@[simp] theorem State.writeCs_pv (s : State) (v : ChannelSet) : (s.writeCs v).pv = s.pv := rfl
@[simp] theorem State.writeCs_pvValid (s : State) (v : ChannelSet) : (s.writeCs v).pvValid = s.pvValid := rfl
@[simp] theorem State.writeCs_cs (s : State) (v : ChannelSet) : (s.writeCs v).cs = v := rfl
@[simp] theorem State.writeCs_csValid (s : State) (v : ChannelSet) : (s.writeCs v).csValid = s.csValid := rfl
@[simp] theorem State.writeCs_fr (s : State) (v : ChannelSet) : (s.writeCs v).fr = s.fr := rfl
@[simp] theorem State.writeCs_frValid (s : State) (v : ChannelSet) : (s.writeCs v).frValid = s.frValid := rfl
@[simp] theorem State.writeCs_inputs (s : State) (v : ChannelSet) : (s.writeCs v).inputs = s.inputs := rfl
@[simp] theorem State.writeCs_now (s : State) (v : ChannelSet) : (s.writeCs v).now = s.now := rfl

/-! ### writeFr -/

@[simp] theorem State.writeFr_ax (s : State) (v : Frame) : (s.writeFr v).ax = s.ax := rfl
@[simp] theorem State.writeFr_pv (s : State) (v : Frame) : (s.writeFr v).pv = s.pv := rfl
@[simp] theorem State.writeFr_pvValid (s : State) (v : Frame) : (s.writeFr v).pvValid = s.pvValid := rfl
@[simp] theorem State.writeFr_cs (s : State) (v : Frame) : (s.writeFr v).cs = s.cs := rfl
@[simp] theorem State.writeFr_csValid (s : State) (v : Frame) : (s.writeFr v).csValid = s.csValid := rfl
@[simp] theorem State.writeFr_fr (s : State) (v : Frame) : (s.writeFr v).fr = v := rfl
@[simp] theorem State.writeFr_frValid (s : State) (v : Frame) : (s.writeFr v).frValid = s.frValid := rfl
@[simp] theorem State.writeFr_inputs (s : State) (v : Frame) : (s.writeFr v).inputs = s.inputs := rfl
@[simp] theorem State.writeFr_now (s : State) (v : Frame) : (s.writeFr v).now = s.now := rfl

/-! ### latchPv -/

@[simp] theorem State.latchPv_ax (s : State) (v : ProtocolValue) : (s.latchPv v).ax = s.ax := rfl
@[simp] theorem State.latchPv_pv (s : State) (v : ProtocolValue) : (s.latchPv v).pv = v := rfl
@[simp] theorem State.latchPv_pvValid (s : State) (v : ProtocolValue) : (s.latchPv v).pvValid = true := rfl
@[simp] theorem State.latchPv_cs (s : State) (v : ProtocolValue) : (s.latchPv v).cs = s.cs := rfl
@[simp] theorem State.latchPv_csValid (s : State) (v : ProtocolValue) : (s.latchPv v).csValid = s.csValid := rfl
@[simp] theorem State.latchPv_fr (s : State) (v : ProtocolValue) : (s.latchPv v).fr = s.fr := rfl
@[simp] theorem State.latchPv_frValid (s : State) (v : ProtocolValue) : (s.latchPv v).frValid = s.frValid := rfl
@[simp] theorem State.latchPv_inputs (s : State) (v : ProtocolValue) : (s.latchPv v).inputs = s.inputs := rfl
@[simp] theorem State.latchPv_now (s : State) (v : ProtocolValue) : (s.latchPv v).now = s.now := rfl

/-! ### latchCs -/

@[simp] theorem State.latchCs_ax (s : State) (v : ChannelSet) : (s.latchCs v).ax = s.ax := rfl
@[simp] theorem State.latchCs_pv (s : State) (v : ChannelSet) : (s.latchCs v).pv = s.pv := rfl
@[simp] theorem State.latchCs_pvValid (s : State) (v : ChannelSet) : (s.latchCs v).pvValid = s.pvValid := rfl
@[simp] theorem State.latchCs_cs (s : State) (v : ChannelSet) : (s.latchCs v).cs = v := rfl
@[simp] theorem State.latchCs_csValid (s : State) (v : ChannelSet) : (s.latchCs v).csValid = true := rfl
@[simp] theorem State.latchCs_fr (s : State) (v : ChannelSet) : (s.latchCs v).fr = s.fr := rfl
@[simp] theorem State.latchCs_frValid (s : State) (v : ChannelSet) : (s.latchCs v).frValid = s.frValid := rfl
@[simp] theorem State.latchCs_inputs (s : State) (v : ChannelSet) : (s.latchCs v).inputs = s.inputs := rfl
@[simp] theorem State.latchCs_now (s : State) (v : ChannelSet) : (s.latchCs v).now = s.now := rfl

/-! ### latchFr -/

@[simp] theorem State.latchFr_ax (s : State) (v : Frame) : (s.latchFr v).ax = s.ax := rfl
@[simp] theorem State.latchFr_pv (s : State) (v : Frame) : (s.latchFr v).pv = s.pv := rfl
@[simp] theorem State.latchFr_pvValid (s : State) (v : Frame) : (s.latchFr v).pvValid = s.pvValid := rfl
@[simp] theorem State.latchFr_cs (s : State) (v : Frame) : (s.latchFr v).cs = s.cs := rfl
@[simp] theorem State.latchFr_csValid (s : State) (v : Frame) : (s.latchFr v).csValid = s.csValid := rfl
@[simp] theorem State.latchFr_fr (s : State) (v : Frame) : (s.latchFr v).fr = v := rfl
@[simp] theorem State.latchFr_frValid (s : State) (v : Frame) : (s.latchFr v).frValid = true := rfl
@[simp] theorem State.latchFr_inputs (s : State) (v : Frame) : (s.latchFr v).inputs = s.inputs := rfl
@[simp] theorem State.latchFr_now (s : State) (v : Frame) : (s.latchFr v).now = s.now := rfl

/-! ### applyReset -/

@[simp] theorem State.applyReset_ax (s : State) : s.applyReset.ax = Vector.replicate 4 0#16 := rfl
@[simp] theorem State.applyReset_pv (s : State) : s.applyReset.pv = Config.unspecifiedPv s.now := rfl
@[simp] theorem State.applyReset_pvValid (s : State) : s.applyReset.pvValid = false := rfl
@[simp] theorem State.applyReset_cs (s : State) : s.applyReset.cs = Config.unspecifiedCs s.now := rfl
@[simp] theorem State.applyReset_csValid (s : State) : s.applyReset.csValid = false := rfl
@[simp] theorem State.applyReset_fr (s : State) : s.applyReset.fr = Config.unspecifiedFr s.now := rfl
@[simp] theorem State.applyReset_frValid (s : State) : s.applyReset.frValid = false := rfl
@[simp] theorem State.applyReset_inputs (s : State) : s.applyReset.inputs = s.inputs := rfl
@[simp] theorem State.applyReset_now (s : State) : s.applyReset.now = s.now := rfl

/-! ### advance -/

@[simp] theorem State.advance_ax (s : State) : s.advance.ax = s.ax := rfl
@[simp] theorem State.advance_pv (s : State) : s.advance.pv = s.pv := rfl
@[simp] theorem State.advance_pvValid (s : State) : s.advance.pvValid = s.pvValid := rfl
@[simp] theorem State.advance_cs (s : State) : s.advance.cs = s.cs := rfl
@[simp] theorem State.advance_csValid (s : State) : s.advance.csValid = s.csValid := rfl
@[simp] theorem State.advance_fr (s : State) : s.advance.fr = s.fr := rfl
@[simp] theorem State.advance_frValid (s : State) : s.advance.frValid = s.frValid := rfl
@[simp] theorem State.advance_inputs (s : State) : s.advance.inputs = s.inputs.tail := rfl
@[simp] theorem State.advance_now (s : State) : s.advance.now = s.now + 1 := rfl

/-! ### present -/

@[simp] theorem State.present_ax (s : State) (p : Ports) : (s.present p).ax = s.ax := rfl
@[simp] theorem State.present_pv (s : State) (p : Ports) : (s.present p).pv = s.pv := rfl
@[simp] theorem State.present_pvValid (s : State) (p : Ports) : (s.present p).pvValid = s.pvValid := rfl
@[simp] theorem State.present_cs (s : State) (p : Ports) : (s.present p).cs = s.cs := rfl
@[simp] theorem State.present_csValid (s : State) (p : Ports) : (s.present p).csValid = s.csValid := rfl
@[simp] theorem State.present_fr (s : State) (p : Ports) : (s.present p).fr = s.fr := rfl
@[simp] theorem State.present_frValid (s : State) (p : Ports) : (s.present p).frValid = s.frValid := rfl
@[simp] theorem State.present_inputs (s : State) (p : Ports) : (s.present p).inputs = p :: s.inputs.tail := rfl
@[simp] theorem State.present_now (s : State) (p : Ports) : (s.present p).now = s.now := rfl

/-! ### The reset state -/

@[simp] theorem State.reset_ax : State.reset.ax = Vector.replicate 4 0#16 := rfl
@[simp] theorem State.reset_pv : State.reset.pv = Config.unspecifiedPv 0 := rfl
@[simp] theorem State.reset_pvValid : State.reset.pvValid = false := rfl
@[simp] theorem State.reset_cs : State.reset.cs = Config.unspecifiedCs 0 := rfl
@[simp] theorem State.reset_csValid : State.reset.csValid = false := rfl
@[simp] theorem State.reset_fr : State.reset.fr = Config.unspecifiedFr 0 := rfl
@[simp] theorem State.reset_frValid : State.reset.frValid = false := rfl
@[simp] theorem State.reset_inputs : State.reset.inputs = [] := rfl
@[simp] theorem State.reset_now : State.reset.now = 0 := rfl

end Sys2Proof.Machine
end

