-- ==== Sys2Proof/Laws/Ops.lean ====
section
/-! SUPPORT. What the reading operations can answer. -/

namespace Sys2Proof.Machine

/-- The axis integers read. -/
@[simp] theorem getElem_readAx (s : State) (i : Nat) (h : i < 4) : s.readAx[i] = sext s.ax[i] := by
  simp [State.readAx]

/-- An axis after a masked write. -/
theorem getElem_writeAx (s : State) (mask : AxisMask) (vals : Vector AxisWord 4) (i : Nat) (h : i < 4) :
    (s.writeAx mask vals).ax[i] = if mask.getLsbD i then vals[i] else s.ax[i] := by
  rw [State.writeAx_ax, Vector.getElem_ofFn]
  rfl

/-! What each write leaves alone, said as one equation: everything but the register written and its valid bit. -/

theorem writeAx_frame (s : State) (mask : AxisMask) (vals : Vector AxisWord 4) :
    s.writeAx mask vals = { s with ax := (s.writeAx mask vals).ax } := rfl

theorem latchPv_frame (s : State) (v : ProtocolValue) : s.latchPv v = { s with pv := (s.latchPv v).pv, pvValid := true } := rfl

theorem latchCs_frame (s : State) (v : ChannelSet) : s.latchCs v = { s with cs := (s.latchCs v).cs, csValid := true } := rfl

theorem latchFr_frame (s : State) (v : Frame) : s.latchFr v = { s with fr := (s.latchFr v).fr, frValid := true } := rfl

theorem latchCs_latchFr_frame (s : State) (v : ChannelSet) (w : Frame) :
    (s.latchCs v).latchFr w =
      { s with cs := ((s.latchCs v).latchFr w).cs, csValid := true, fr := ((s.latchCs v).latchFr w).fr, frValid := true } := rfl

/-- The axis integers read depend on the axes alone. -/
theorem readAx_congr (s t : State) (h : t.ax = s.ax) : t.readAx = s.readAx := by
  simp [State.readAx, h]

/-- All that `memRead` can answer. -/
theorem memRead_cases (s : State) (a n : Nat) :
    (25 < a + n ∧ s.memRead a n = .error (.frameIndexAbsent a n)) ∨
    (a + n ≤ 25 ∧ s.frValid = false ∧ s.memRead a n = .error (.resultNotValid .frameOut)) ∨
    (a + n ≤ 25 ∧ s.frValid = true ∧ s.memRead a n = .ok ((s.fr.toList.drop a).take n)) := by
  by_cases h : 25 < a + n
  · exact .inl ⟨h, by simp [State.memRead, h]⟩
  · cases hv : s.frValid
    · exact .inr (.inl ⟨Nat.le_of_not_lt h, rfl, by simp [State.memRead, h, hv]⟩)
    · exact .inr (.inr ⟨Nat.le_of_not_lt h, rfl, by simp [State.memRead, h, hv]⟩)

/-- All that an observation of `pv_out` can answer. -/
theorem observePv_cases (s : State) :
    (s.pvValid = true ∧ s.observePv = .ok s.pv) ∨ (s.pvValid = false ∧ s.observePv = .error (.resultNotValid .pvOut)) := by
  cases h : s.pvValid <;> simp [State.observePv, State.outputs, h]

/-- All that an observation of `cs_out` can answer. -/
theorem observeCs_cases (s : State) :
    (s.csValid = true ∧ s.observeCs = .ok s.cs) ∨ (s.csValid = false ∧ s.observeCs = .error (.resultNotValid .csOut)) := by
  cases h : s.csValid <;> simp [State.observeCs, State.outputs, h]

/-- All that an observation of `frame_out` can answer. -/
theorem observeFrame_cases (s : State) :
    (s.frValid = true ∧ s.observeFrame = .ok s.fr) ∨
    (s.frValid = false ∧ s.observeFrame = .error (.resultNotValid .frameOut)) := by
  cases h : s.frValid <;> simp [State.observeFrame, State.outputs, h]

end Sys2Proof.Machine
end

