-- ==== Sys2Proof/Laws/PerInstr.lean ====
section
/-! SUPPORT. Families of statements about operations as syntax, one lemma per constructor of Instr. -/

namespace Sys2Proof.Laws

/-- The encoder drives the operation's own opcode, no reset, and the decoder reads an operation of that opcode back, with the
operands that are not ignored. -/
def OpcodeKept.Statement (i : Instr) : Prop :=
  (encode i).op = i.opcode ∧ (encode i).rst = false ∧ (decode (encode i)).opcode = i.opcode

theorem OpcodeKept.nop : OpcodeKept.Statement .nop := by
  simp [OpcodeKept.Statement, encode, decode, Ports.idle, Instr.opcode]
theorem OpcodeKept.upd (mask : AxisMask) (vals : Vector AxisWord 4) : OpcodeKept.Statement (.upd mask vals) := by
  simp [OpcodeKept.Statement, encode, decode, Ports.idle, Instr.opcode]
theorem OpcodeKept.cal (calIn : AxisWord) : OpcodeKept.Statement (.cal calIn) := by
  simp [OpcodeKept.Statement, encode, decode, Ports.idle, Instr.opcode]
theorem OpcodeKept.snap : OpcodeKept.Statement .snap := by
  simp [OpcodeKept.Statement, encode, decode, Ports.idle, Instr.opcode]
theorem OpcodeKept.enc (ch : Vector ChannelWord 16) (flags : Byte) : OpcodeKept.Statement (.enc ch flags) := by
  simp [OpcodeKept.Statement, encode, decode, Ports.idle, Instr.opcode]
theorem OpcodeKept.tick : OpcodeKept.Statement .tick := by
  simp [OpcodeKept.Statement, encode, decode, Ports.idle, Instr.opcode]
theorem OpcodeKept.rsv6 : OpcodeKept.Statement .rsv6 := by
  simp [OpcodeKept.Statement, encode, decode, Ports.idle, Instr.opcode]
theorem OpcodeKept.rsv7 : OpcodeKept.Statement .rsv7 := by
  simp [OpcodeKept.Statement, encode, decode, Ports.idle, Instr.opcode]

end Sys2Proof.Laws
end

