-- ==== Sys2Proof/Laws/Step.lean ====
section
/-! SUPPORT. What a step and a driven run do, said once each. -/

namespace Sys2Proof.Machine

@[simp] theorem exec_nop (s : State) : exec .nop s = .next s := rfl
@[simp] theorem exec_upd (mask : AxisMask) (vals : Vector AxisWord 4) (s : State) :
    exec (.upd mask vals) s = .next (s.writeAx mask vals) := rfl
@[simp] theorem exec_cal (v : AxisWord) (s : State) :
    exec (.cal v) s = .next (s.latchPv (toProtocolValue (cal (sext v)))) := rfl
@[simp] theorem exec_snap (s : State) : exec .snap s = .next (s.latchCs (snapshot s.readAx)) := rfl
@[simp] theorem exec_enc (ch : Vector ChannelWord 16) (flags : Byte) (s : State) :
    exec (.enc ch flags) s = .next (s.latchFr (encodeFrame (channelOperands ch) flags)) := rfl
@[simp] theorem exec_tick (s : State) :
    exec .tick s = .next ((s.latchCs (snapshot s.readAx)).latchFr (tickFrame s.readAx)) := rfl
@[simp] theorem exec_rsv6 (s : State) : exec .rsv6 s = .next s := rfl
@[simp] theorem exec_rsv7 (s : State) : exec .rsv7 s = .next s := rfl

/-- The listed sample is the one presented. -/
theorem presented_of_inputs (s : State) (p : Ports) (rest : List Ports) (h : s.inputs = p :: rest) : s.presented = p := by
  simp [State.presented, h]

theorem advance_of_inputs (s : State) (p : Ports) (rest : List Ports) (h : s.inputs = p :: rest) :
    s.advance = { s with inputs := rest, now := s.now + 1 } := by
  simp [State.advance, h]

theorem step_of_inputs (s : State) (p : Ports) (rest : List Ports) (h : s.inputs = p :: rest) :
    step s = accept p { s with inputs := rest, now := s.now + 1 } := by
  rw [step, presented_of_inputs s p rest h, advance_of_inputs s p rest h]

/-- Accepting a sample is the reset action or the presented operation, and nothing else. -/
theorem accept_cases (p : Ports) (s : State) :
    (p.rst = true ∧ accept p s = .next s.applyReset) ∨ (p.rst = false ∧ accept p s = exec (decode p) s) := by
  cases h : p.rst <;> simp [accept, h]

/-- What an operation can do, said once: every case goes on, and each result is a latch or a masked write. -/
theorem exec_cases (i : Instr) (s : State) :
    ((i = .nop ∨ i = .rsv6 ∨ i = .rsv7) ∧ exec i s = .next s) ∨
    (∃ mask vals, i = .upd mask vals ∧ exec i s = .next (s.writeAx mask vals)) ∨
    (∃ v, i = .cal v ∧ exec i s = .next (s.latchPv (toProtocolValue (cal (sext v))))) ∨
    (i = .snap ∧ exec i s = .next (s.latchCs (snapshot s.readAx))) ∨
    (∃ ch flags, i = .enc ch flags ∧ exec i s = .next (s.latchFr (encodeFrame (channelOperands ch) flags))) ∨
    (i = .tick ∧ exec i s = .next ((s.latchCs (snapshot s.readAx)).latchFr (tickFrame s.readAx))) := by
  cases i <;> simp

/-- The inputs listed play no part in an operation, which leaves them and the step count alone. -/
theorem exec_keeps_inputs (i : Instr) (s t : State) (h : exec i s = .next t) : t.inputs = s.inputs ∧ t.now = s.now := by
  cases i <;> simp at h <;> subst h <;> simp

theorem drive_nil (s : State) : drive [] s = .next s := rfl

/-- A run that begins with a step that goes on. -/
theorem run_succ_of_step (n : Nat) (s t : State) (h : step s = .next t) :
    Sys2Proof.core.run (n + 1) s = Sys2Proof.core.run n t := by
  have hc : Sys2Proof.core.step s = .next t := h
  have hr : ∀ (M : Host.Core) (x y : M.State), M.step x = .next y → M.run (n + 1) x = M.run n y := by
    intro M x y hxy
    simp [Host.Core.run, hxy]
  exact hr Sys2Proof.core s t hc

/-- The samples listed behind the one accepted play no part and stay listed. -/
theorem accept_inputs (p : Ports) (l : List Ports) (s t : State) (h : accept p s = .next t) :
    accept p { s with inputs := l } = .next { t with inputs := l } := by
  rcases accept_cases p s with ⟨hr, ha⟩ | ⟨hr, ha⟩
  · rw [ha] at h
    cases h
    simp [accept, hr, State.applyReset, State.clearValid]
  · rw [ha] at h
    simp only [accept, hr]
    cases hd : decode p <;> simp [hd] at h ⊢ <;> subst h <;>
      simp [State.writeAx, State.latchPv, State.latchCs, State.latchFr, State.writePv, State.writeCs, State.writeFr,
        State.setPvValid, State.setCsValid, State.setFrValid, State.readAx]

/-- A driven run, one sample at a time: accept the first, then drive the others. -/
theorem drive_cons (p : Ports) (ps : List Ports) (s t : State)
    (h : accept p { s with now := s.now + 1 } = .next t) : drive (p :: ps) s = drive ps t := by
  have hs : step { s with inputs := (p :: ps) ++ s.inputs } = .next { t with inputs := ps ++ s.inputs } := by
    rw [step_of_inputs _ p (ps ++ s.inputs) rfl]
    exact accept_inputs p (ps ++ s.inputs) _ t h
  have hi : t.inputs = s.inputs := by
    have h2 := accept_inputs p s.inputs _ t h
    rw [show ({ s with now := s.now + 1, inputs := s.inputs } : State) = { s with now := s.now + 1 } from rfl, h] at h2
    injection h2 with h2
    rw [h2]
  unfold drive
  rw [List.length_cons, run_succ_of_step _ _ _ hs, hi]

/-- Accepting always goes on. -/
theorem accept_next (p : Ports) (s : State) : ∃ t, accept p s = .next t := by
  rcases accept_cases p s with ⟨-, h⟩ | ⟨-, h⟩
  · exact ⟨_, h⟩
  · rw [h]
    cases decode p <;> exact ⟨_, rfl⟩

end Sys2Proof.Machine
end

