-- ==== Sys2Proof/Tests/Slice0.lean ====
section
/-! SUPPORT. Tests: expected results are the spec's own (95_test_vectors.md, or hand evaluation of the rule named), and for every statement
with hypotheses a witness that meets them. -/

namespace Sys2Proof.Tests

open Sys2Proof Sys2Proof.Machine

/-- A small state: given axes, every result register zero and not valid, nothing listed. -/
def small (a : Axes) : State where
  ax := a
  pv := 0#11
  pvValid := false
  cs := Vector.replicate 16 0#11
  csValid := false
  fr := Vector.replicate 25 0#8
  frValid := false
  inputs := []
  now := 0

/-- The next state's property, false where there is none. -/
def after (o : Host.Outcome State Fault Refusal) (f : State → Bool) : Bool :=
  match o with
  | .next t => f t
  | .fault _ => false
  | .refused _ => false

/-! ### WellFormed: one ill-formed term for each of UPD's four checks -/

theorem test_wf_refuses_roll : (Instr.upd 0b1110#4 #v[1#16, 2#16, 3#16, 4#16]).wellFormed = false := by decide
theorem test_wf_refuses_pitch : (Instr.upd 0b1101#4 #v[1#16, 2#16, 3#16, 4#16]).wellFormed = false := by decide
theorem test_wf_refuses_yaw : (Instr.upd 0b1011#4 #v[1#16, 2#16, 3#16, 4#16]).wellFormed = false := by decide
theorem test_wf_refuses_throttle : (Instr.upd 0b0111#4 #v[1#16, 2#16, 3#16, 4#16]).wellFormed = false := by decide
theorem test_wf_accepts_canonical : (Instr.upd 0b1010#4 #v[0#16, 2#16, 0#16, 4#16]).wellFormed = true := by decide

/-! ### Decode: words written out from R69 and R71 (port layout of log 6) -/

theorem test_decode_nop : decodeTableWord 8 0b000 = some .nop := by decide
/-- P2 step 1: `op` = 001, `upd_mask` = 1000, `upd_val[3]` = 0x2000. -/
theorem test_decode_upd : decodeTableWord 71 (0b001 + (0b1000 <<< 3) + (0x2000 <<< 55)) =
    some (.upd 0b1000#4 #v[0#16, 0#16, 0#16, 0x2000#16]) := by decide
/-- P4 step 1: `op` = 010, `cal_in` = 0x1000. -/
theorem test_decode_cal : decodeTableWord 87 (0b010 + (0x1000 <<< 71)) = some (.cal 0x1000#16) := by decide
theorem test_decode_snap : decodeTableWord 8 0b011 = some .snap := by decide
/-- `op` = 100 with channel 0, channel 1, channel 15 and the flags driven. -/
theorem test_decode_enc : decodeWord (0b100 + (0x0800 <<< 87) + (0xFFFF <<< 103) + (0x1234 <<< 327) + (0xA5 <<< 343)) =
    .enc #v[0x0800#16, 0xFFFF#16, 0#16, 0#16, 0#16, 0#16, 0#16, 0#16, 0#16, 0#16, 0#16, 0#16, 0#16, 0#16, 0#16, 0x1234#16] 0xA5#8 := by
  decide
theorem test_decode_tick : decodeTableWord 8 0b101 = some .tick := by decide
theorem test_decode_rsv6 : decodeTableWord 8 0b110 = some .rsv6 := by decide
theorem test_decode_rsv7 : decodeTableWord 8 0b111 = some .rsv7 := by decide

/-! ### The operations, one step each -/

/-- P1 step 1 through the fetch: TICK as the first operation after reset gives the all-neutral frame. -/
theorem test_tick_first_after_reset :
    after (step (State.reset.withFetchWord 8 0b101)) (fun t => t.frValid && t.csValid && t.fr == #v[0x0F#8, 0x00#8, 0x04#8, 0x20#8, 0x00#8,
      0x01#8, 0x08#8, 0x40#8, 0x00#8, 0x02#8, 0x10#8, 0x80#8, 0x00#8, 0x04#8, 0x20#8, 0x00#8, 0x01#8, 0x08#8, 0x40#8, 0x00#8, 0x02#8,
      0x10#8, 0x80#8, 0x00#8, 0x00#8]) = true := by decide
/-- V-STO row 6. -/
theorem test_tick_row6 :
    after (exec .tick (small #v[0x1000#16, 0xF000#16, 0x3000#16, 0xE000#16])) (fun t => t.fr == #v[0x0F#8, 0xFF#8, 0x04#8, 0xD8#8, 0xBF#8,
      0x01#8, 0x04#8, 0x40#8, 0x00#8, 0x02#8, 0x10#8, 0x80#8, 0x00#8, 0x04#8, 0x20#8, 0x00#8, 0x01#8, 0x08#8, 0x40#8, 0x00#8, 0x02#8,
      0x10#8, 0x80#8, 0x00#8, 0x00#8]) = true := by decide
/-- V-STO row 5: -1.0, 1.0, 1.5, -2.0. -/
theorem test_snap_row5 :
    after (exec .snap (small #v[0xC000#16, 0x4000#16, 0x6000#16, 0x8000#16])) (fun t => t.csValid && !t.frValid &&
      t.cs == #v[0#11, 2047#11, 2047#11, 0#11, 1024#11, 1024#11, 1024#11, 1024#11, 1024#11, 1024#11, 1024#11, 1024#11, 1024#11, 1024#11,
        1024#11, 1024#11]) = true := by decide
/-- V-STO row 7: 1, -1, 17, -9. -/
theorem test_snap_row7 :
    after (exec .snap (small #v[0x0001#16, 0xFFFF#16, 0x0011#16, 0xFFF7#16])) (fun t =>
      t.cs[0] == 1024#11 && t.cs[1] == 1023#11 && t.cs[2] == 1025#11 && t.cs[3] == 1023#11) = true := by decide
/-- V-CAL rows 8, 10, 18 and 22: rounding on both sides. -/
theorem test_cal_rounding :
    (cal (-12288), cal (-4096), cal 4096, cal 12288) = (256, 768, 1279, 1791) := by decide
/-- V-CAL rows 1, 6, 7, 13, 14, 17, 19, 21, 23, 24 and 29. -/
theorem test_cal_edges :
    [cal (-32768), cal (-16376), cal (-16375), cal (-1), cal 0, cal 17, cal 8192, cal 8197, cal 16375, cal 16376, cal 32767] =
      [0, 0, 1, 1023, 1024, 1025, 1535, 1536, 2046, 2047, 2047] := by decide
/-- R102's corner case `0xC009`, through the operation. -/
theorem test_cal_latches : after (exec (.cal 0xC009#16) (small #v[0#16, 0#16, 0#16, 0#16])) (fun t => t.pv == 1#11 && t.pvValid) = true := by
  decide
/-- V-ENC row 14: channels 1 to 16. -/
theorem test_enc_row14 :
    after (exec (.enc #v[1#16, 2#16, 3#16, 4#16, 5#16, 6#16, 7#16, 8#16, 9#16, 10#16, 11#16, 12#16, 13#16, 14#16, 15#16, 16#16] 0x00#8)
      (small #v[0#16, 0#16, 0#16, 0#16])) (fun t => t.fr == #v[0x0F#8, 0x01#8, 0x10#8, 0xC0#8, 0x00#8, 0x08#8, 0x50#8, 0x00#8, 0x03#8,
        0x1C#8, 0x00#8, 0x01#8, 0x09#8, 0x50#8, 0xC0#8, 0x02#8, 0x18#8, 0xD0#8, 0x00#8, 0x07#8, 0x3C#8, 0x00#8, 0x02#8, 0x00#8, 0x00#8]) =
      true := by decide
/-- V-ENC row 12: masking, and flags 0xA5. -/
theorem test_enc_row12 :
    after (exec (.enc #v[0x0800#16, 0xFFFF#16, 0xF801#16, 0x1234#16, 1024#16, 1024#16, 1024#16, 1024#16, 1024#16, 1024#16, 1024#16, 1024#16,
        1024#16, 1024#16, 1024#16, 1024#16] 0xA5#8)
      (small #v[0#16, 0#16, 0#16, 0#16])) (fun t => t.frValid && !t.csValid && t.fr == #v[0x0F#8, 0x00#8, 0xF8#8, 0x7F#8, 0x00#8, 0x68#8,
        0x04#8, 0x40#8, 0x00#8, 0x02#8, 0x10#8, 0x80#8, 0x00#8, 0x04#8, 0x20#8, 0x00#8, 0x01#8, 0x08#8, 0x40#8, 0x00#8, 0x02#8, 0x10#8,
        0x80#8, 0xA5#8, 0x00#8]) = true := by decide
/-- `UPD 0b0101, 7, 8, 9, 10` from the reset state gives (7, 0, 9, 0). -/
theorem test_upd_mask : after (exec (.upd 0b0101#4 #v[7#16, 8#16, 9#16, 10#16]) State.reset) (fun t =>
    t.ax == #v[7#16, 0#16, 9#16, 0#16] && !t.frValid) = true := by decide
/-- `UPD 0b1000, -, -, -, 0x8000`: stored unclamped. -/
theorem test_upd_raw : after (exec (.upd 0b1000#4 #v[0#16, 0#16, 0#16, 0x8000#16]) State.reset) (fun t =>
    t.ax == #v[0#16, 0#16, 0#16, 0x8000#16]) = true := by decide
theorem test_nop : exec .nop (small #v[1#16, 2#16, 3#16, 4#16]) = .next (small #v[1#16, 2#16, 3#16, 4#16]) := rfl
theorem test_rsv6 : exec .rsv6 (small #v[1#16, 2#16, 3#16, 4#16]) = .next (small #v[1#16, 2#16, 3#16, 4#16]) := rfl
theorem test_rsv7 : exec .rsv7 (small #v[1#16, 2#16, 3#16, 4#16]) = .next (small #v[1#16, 2#16, 3#16, 4#16]) := rfl

/-- V-RST last row: reset with TICK presented; the TICK is not executed. -/
theorem test_reset_wins :
    after (step { small #v[1#16, 2#16, 3#16, 4#16] with frValid := true, inputs := [{ Ports.idle 0b101#3 with rst := true }] })
      (fun t => t.ax == #v[0#16, 0#16, 0#16, 0#16] && !t.frValid && !t.csValid && !t.pvValid) = true := by decide

/-- R177: the frame after reset refuses to be observed. -/
theorem test_observe_refused : State.reset.observeFrame = .error (.resultNotValid .frameOut) := rfl

/-- R119 on a payload by hand: byte 20 = 0xE0 and byte 21 = 0xFF is channel 15 = 2047 alone (V-ENC row 5). -/
theorem test_unpack_channel15 :
    unpack #v[0#8, 0#8, 0#8, 0#8, 0#8, 0#8, 0#8, 0#8, 0#8, 0#8, 0#8, 0#8, 0#8, 0#8, 0#8, 0#8, 0#8, 0#8, 0#8, 0#8, 0xE0#8, 0xFF#8] =
      #v[0#11, 0#11, 0#11, 0#11, 0#11, 0#11, 0#11, 0#11, 0#11, 0#11, 0#11, 0#11, 0#11, 0#11, 0#11, 2047#11] := by decide

/-! ### The assembler (R76, R77) -/

theorem test_asm_upd : assembleLine "UPD 0b1000, -, -, -, #0.5 ; throttle".toList =
    .ok (some (.upd 0b1000#4 #v[0#16, 0#16, 0#16, 8192#16])) := by decide +kernel
theorem test_asm_setax : assembleLine "SETAX throttle, #-1.0".toList =
    .ok (some (.upd 0b1000#4 #v[0#16, 0#16, 0#16, 0xC000#16])) := by decide +kernel
theorem test_asm_unknown_axis : assembleLine "SETAX rudder, 1".toList = .error .unknownAxis := by decide +kernel
theorem test_asm_not_exact : assembleLine "CAL #0.1".toList = .error .notRepresentable := by decide +kernel
theorem test_asm_comment : assembleLine " ; nothing here".toList = .ok none := by decide +kernel

/-! ### Witnesses: every statement with hypotheses has operands that meet them all -/

theorem witness_EveryOpcodeSelectsItsRow :
    (Ports.idle 0b000#3).op = 0b000#3 ∧ (Ports.idle 0b001#3).op = 0b001#3 ∧ (Ports.idle 0b010#3).op = 0b010#3 ∧
    (Ports.idle 0b011#3).op = 0b011#3 ∧ (Ports.idle 0b100#3).op = 0b100#3 ∧ (Ports.idle 0b101#3).op = 0b101#3 ∧
    (Ports.idle 0b110#3).op = 0b110#3 ∧ (Ports.idle 0b111#3).op = 0b111#3 := by decide

theorem witness_DecodeInvertsEncode :
    (Instr.upd 0b1010#4 #v[0#16, 0x8000#16, 0#16, 0xFFFF#16]).wellFormed = true ∧ (Instr.cal 0x8000#16).wellFormed = true := by decide

/-- Two samples of one UPD that differ in an unselected value and in `cal_in`. -/
theorem witness_UnusedPortsHaveNoEffect_upd :
    let p : Ports := { Ports.idle 0b001#3 with updMask := 0b0001#4, updVal := #v[5#16, 1#16, 0#16, 0#16] }
    let q : Ports := { Ports.idle 0b001#3 with updMask := 0b0001#4, updVal := #v[5#16, 2#16, 0#16, 9#16], calIn := 7#16 }
    p.rst = q.rst ∧ p.op = q.op ∧ (p.updMask = q.updMask ∧ ∀ i : Fin 4, p.updMask.getLsbD i.val = true → p.updVal[i] = q.updVal[i]) ∧
      p ≠ q := by decide

/-- Two samples of one CAL that differ in the mask and the flags. -/
theorem witness_UnusedPortsHaveNoEffect_cal :
    let p : Ports := { Ports.idle 0b010#3 with calIn := 0x8000#16, updMask := 1#4 }
    let q : Ports := { Ports.idle 0b010#3 with calIn := 0x8000#16, encFlags := 0xFF#8 }
    p.rst = q.rst ∧ p.op = q.op ∧ p.calIn = q.calIn ∧ p ≠ q := by decide

/-- Two samples of one ENC that differ in `cal_in`. -/
theorem witness_UnusedPortsHaveNoEffect_enc :
    let p : Ports := { Ports.idle 0b100#3 with encFlags := 0xFF#8, calIn := 1#16 }
    let q : Ports := { Ports.idle 0b100#3 with encFlags := 0xFF#8 }
    p.rst = q.rst ∧ p.op = q.op ∧ (p.encCh = q.encCh ∧ p.encFlags = q.encFlags) ∧ p ≠ q := by decide

theorem witness_StepRunsThePresentedCommand :
    ({ State.reset with inputs := [encode .tick] } : State).inputs = encode .tick :: [] ∧ (encode .tick).rst = false ∧
    Instr.tick.wellFormed = true ∧ State.reset.inputs = [] := ⟨rfl, rfl, rfl, rfl⟩

theorem witness_ResetWinsOverTheCommand :
    let p : Ports := { Ports.idle 0b101#3 with rst := true }
    ({ State.reset with inputs := [p, p] } : State).inputs = p :: [p] ∧ p.rst = true := ⟨rfl, rfl⟩

theorem witness_ResetIsNeutralAndUnobservable : 0 + 25 ≤ 25 ∧ 24 + 1 ≤ 25 ∧ 25 + 0 ≤ 25 := by decide

theorem witness_CalLatchesTheCalibratedOperand : (Ports.idle 0b010#3).op = 0b010#3 := rfl

theorem witness_CalOnlyTieIsZero :
    (-(2 ^ 14) ≤ (-16384 : Int) ∧ (-16384 : Int) ≤ 2 ^ 14 ∧ (-16384 : Int) ≠ 0) ∧
    (-(2 ^ 14) ≤ (0 : Int) ∧ (0 : Int) ≤ 2 ^ 14) := by decide

/-- The nearest integer that the second clause asks for: -1.0 has the exact image 0. -/
theorem witness_CalOnlyTieIsZero_nearest : |((-16384 : ℚ) / 2 ^ 14 + 1) / 2 * 2047 - ((0 : Int) : ℚ)| ≤ 1 / 2 := by norm_num

theorem witness_CalClampsTheInput : (-16385 : Int) < -(2 ^ 14) ∧ (2 ^ 14 : Int) < 16385 := by decide

theorem witness_CalIsMonotoneAndOnto : (-1 : Int) ≤ 0 ∧ (0 : Int) ≤ 2047 ∧ (2047 : Int) ≤ 2047 := by decide

theorem witness_CalReflects : (-32768 : Int) ≠ 0 := by decide

theorem witness_CalPreimagesAreIntervals :
    (0 : Int) ≤ 0 ∧ (0 : Int) ≤ 2047 ∧ (0 : Int) ≤ 2047 ∧ (2047 : Int) ≤ 2047 ∧ (-16384 : Int) ≤ -16384 ∧ (-16384 : Int) ≤ 16384 ∧
    (-16385 : Int) < -16384 ∧ (16384 : Int) < 16385 := by decide

theorem witness_EncoderMasksByTruncation : 2047 ≤ 2047 ∧ 10 < 11 := by decide

theorem witness_EncPlacesEveryChannelBit : (Ports.idle 0b100#3).op = 0b100#3 := rfl

/-- Two ChannelSets and two flags of one frame: the third clause's hypothesis is met. -/
theorem witness_FrameRoundTrip :
    pack (Vector.replicate 16 2047#11) = Vector.replicate 22 0xFF#8 ∧
    encodeFrame (channelInts (Vector.replicate 16 1#11)) 3#8 = encodeFrame (channelInts (Vector.replicate 16 1#11)) 3#8 :=
  ⟨by decide, rfl⟩

/-- Channel 5 changed from 0 to 65535; bit 0 of payload byte 0 and frame byte 10 lie outside it. -/
theorem witness_LanesAreIndependent :
    let x : Vector Nat 16 := Vector.replicate 16 0
    let y : Vector Nat 16 := Vector.ofFn fun k => if k.val = 5 then 65535 else 0
    (∀ j : Fin 16, j ≠ 5 → x[j] = y[j]) ∧ (8 * 0 + 0) / 11 ≠ 5 ∧ 1 + (11 * 5 + 10) / 8 < 10 ∧ 6 < 1 + 11 * 5 / 8 := by decide

theorem witness_UpdWritesTheSelectedAxes : (Ports.idle 0b001#3).op = 0b001#3 := rfl

theorem witness_DisjointUpdsCommute : (0b0011#4 &&& 0b1100#4) = 0#4 := by decide

theorem witness_SnapLatchesTheChannelSet : (Ports.idle 0b011#3).op = 0b011#3 ∧ 3 < 4 ∧ 4 ≤ (4 : Fin 16).val := by decide

theorem witness_TickLatchesSnapshotAndFrame : (Ports.idle 0b101#3).op = 0b101#3 ∧ 0 < 4 ∧ 4 ≤ (15 : Fin 16).val := by decide

theorem witness_IdleAndReservedChangeNothing :
    (Ports.idle 0b000#3).op = 0b000#3 ∧ (Ports.idle 0b110#3).op = 0b110#3 ∧ (Ports.idle 0b111#3).op = 0b111#3 := by decide

theorem witness_ThrottleHalfReachesTheFrame : State.reset.ax[2] = 0#16 ∧ 2 < 3 ∧ 4 ≤ (4 : Fin 16).val := by decide

/-- An operation's next state, with registers that did change. -/
theorem witness_OnlyTheOwnersWriteARegister :
    exec .snap State.reset = .next (State.reset.latchCs (snapshot State.reset.readAx)) ∧
    (State.reset.latchCs (snapshot State.reset.readAx)).csValid ≠ State.reset.csValid ∧
    exec (.cal 0#16) State.reset = .next (State.reset.latchPv (toProtocolValue (cal (sext 0#16)))) ∧
    (State.reset.latchPv (toProtocolValue (cal (sext 0#16)))).pvValid ≠ State.reset.pvValid ∧
    exec .tick State.reset = .next ((State.reset.latchCs (snapshot State.reset.readAx)).latchFr (tickFrame State.reset.readAx)) ∧
    ((State.reset.latchCs (snapshot State.reset.readAx)).latchFr (tickFrame State.reset.readAx)).frValid ≠ State.reset.frValid :=
  ⟨rfl, by decide, rfl, by decide, rfl, by decide⟩

theorem witness_OnlyTheOwnersWriteARegister_axes :
    exec (.upd 0b0001#4 #v[1#16, 0#16, 0#16, 0#16]) State.reset = .next (State.reset.writeAx 0b0001#4 #v[1#16, 0#16, 0#16, 0#16]) ∧
    (State.reset.writeAx 0b0001#4 #v[1#16, 0#16, 0#16, 0#16]).ax ≠ State.reset.ax := ⟨rfl, by decide⟩

theorem witness_OperationsAreIdempotent :
    exec .tick State.reset = .next ((State.reset.latchCs (snapshot State.reset.readAx)).latchFr (tickFrame State.reset.readAx)) := rfl

theorem witness_OnlySnapAndTickReadTheAxes :
    (Instr.cal 1#16) ≠ .snap ∧ (Instr.cal 1#16) ≠ .tick ∧
    exec (.cal 1#16) State.reset = .next (State.reset.latchPv (toProtocolValue (cal (sext 1#16)))) ∧
    ∀ mask vals, (Instr.cal 1#16) ≠ .upd mask vals := ⟨by decide, by decide, rfl, fun _ _ h => by cases h⟩

theorem witness_NoResultDependsOnAValidBit :
    exec (.upd 0#4 (Vector.replicate 4 0#16)) State.reset = .next (State.reset.writeAx 0#4 (Vector.replicate 4 0#16)) := rfl

/-- A run of an update and a snapshot, without reset. -/
theorem witness_LastWriteWinsPerAxis :
    withoutReset [encode (.upd 0b1000#4 #v[0#16, 0#16, 0#16, 8192#16]), encode .snap] ∧
    lastWrite 3 [encode (.upd 0b1000#4 #v[0#16, 0#16, 0#16, 8192#16]), encode .snap] = some 8192#16 :=
  ⟨by unfold withoutReset; decide, by decide⟩

theorem witness_SnapshotSeesEveryEarlierUpdate :
    withoutReset [encode .nop] ∧ (encode .tick).rst = false ∧ ((encode .tick).op = 0b011#3 ∨ (encode .tick).op = 0b101#3) ∧
    (encode .snap).rst = false ∧ ((encode .snap).op = 0b011#3 ∨ (encode .snap).op = 0b101#3) :=
  ⟨by unfold withoutReset; decide, rfl, .inr rfl, rfl, .inl rfl⟩

theorem witness_ValidBitsRecordTheOperations : withoutReset [encode .tick, encode (.cal 0#16)] := by unfold withoutReset; decide

/-- A state whose results are valid and meet the invariant, and a step from it. -/
theorem witness_StepKeepsTheInvariant :
    let s : State := { small #v[1#16, 2#16, 3#16, 4#16] with
      cs := Vector.replicate 16 1024#11, csValid := true, fr := tickFrame (Vector.replicate 4 0), frValid := true, inputs := [encode .snap] }
    s.Inv ∧ ∃ t : State, step s = .next t ∧ t.csValid = true := by
  refine ⟨by decide, _, rfl, rfl⟩

/-- Two states that differ in a register whose valid bit is 0, presented one and the same sample. -/
theorem witness_InvalidContentsNeverFlowOut :
    let s : State := { small #v[1#16, 2#16, 3#16, 4#16] with pv := 7#11, inputs := [encode .tick] }
    let s' : State := { small #v[1#16, 2#16, 3#16, 4#16] with pv := 9#11, inputs := [encode .tick] }
    s.Alike s' ∧ s.presented = s'.presented ∧ s.pv ≠ s'.pv ∧ ∃ t : State, step s = .next t ∧ t.frValid = true := by
  refine ⟨by unfold State.Alike; decide, rfl, by decide, _, rfl, rfl⟩

theorem witness_ResetForgetsEverythingObservable : ({ Ports.idle 0b100#3 with rst := true } : Ports).rst = true := rfl

theorem witness_ObservationNeedsAValidResult :
    State.reset.pvValid = false ∧ State.reset.csValid = false ∧ State.reset.frValid = false ∧
    ({ State.reset with pvValid := true } : State).pvValid = true ∧ ({ State.reset with csValid := true } : State).csValid = true ∧
    ({ State.reset with frValid := true } : State).frValid = true ∧ 24 + 1 ≤ 25 ∧ 0 + 25 ≤ 25 ∧ 25 < 25 + 1 ∧ 0 < 1 := by decide

theorem witness_FrameIsStableWhileSending :
    sendsWhole [encode .nop, encode (.upd 0b1111#4 (Vector.replicate 4 0#16)), encode .snap] ∧
    2 ≤ [encode .nop, encode (.upd 0b1111#4 (Vector.replicate 4 0#16)), encode .snap].length := by
  refine ⟨?_, by decide⟩
  unfold sendsWhole keepsFrame
  decide

theorem witness_PseudoOperationsExpand : (AxisLit.hex 0x8000).word = .ok 0x8000#16 ∧ (1 : Fin 4) ≠ axisIndex .roll := by decide

theorem witness_RealLiteralsAreExact : ¬ ∃ n : Int, (n : ℚ) = (1 / 3 : ℚ) * 2 ^ 14 := by
  rintro ⟨n, hn⟩
  have h : ((3 * n : Int) : ℚ) = ((2 ^ 14 : Int) : ℚ) := by
    push_cast
    rw [hn]
    norm_num
  have h' : 3 * n = 2 ^ 14 := by exact_mod_cast h
  omega

theorem witness_AssembledOperationsAreCanonical : Asm.toInstr .center = .ok (.upd 0b1111#4 (Vector.replicate 4 0#16)) := rfl

end Sys2Proof.Tests
end

section
/-! PROOF. The command port read back (R68 to R73), and the one command that a step executes (R13). -/

namespace Sys2Proof

/-- The encoder drives no reset. -/
@[simp] theorem encode_rst (i : Instr) : (encode i).rst = false := by
  cases i <;> rfl

/-- The ports of a canonical operation present that operation. Canonicity is needed for UPD alone: the decoder puts zero for the
values that the mask does not select (R72). -/
theorem decode_encode (i : Instr) (h : i.wellFormed = true) : decode (encode i) = i := by
  cases i with
  | nop => exact decode_of_op_nop _ rfl
  | upd mask vals =>
    have hvals : updCanonicalVals mask vals = vals := updCanonicalVals_of_wellFormed mask vals h
    calc decode (encode (.upd mask vals))
        = .upd mask (updCanonicalVals mask vals) := decode_of_op_upd _ rfl
      _ = .upd mask vals := by rw [hvals]
  | cal calIn => exact decode_of_op_cal _ rfl
  | snap => exact decode_of_op_snap _ rfl
  | enc ch flags => exact decode_of_op_enc _ rfl
  | tick => exact decode_of_op_tick _ rfl
  | rsv6 => exact decode_of_op_rsv6 _ rfl
  | rsv7 => exact decode_of_op_rsv7 _ rfl

/-- A flat word drives no reset. -/
@[simp] theorem Ports.ofWord_rst (w : Nat) : (Ports.ofWord w).rst = false := rfl

end Sys2Proof

namespace Sys2Proof.Machine

theorem accept_of_no_reset (p : Ports) (s : State) (h : p.rst = false) : accept p s = exec (decode p) s := by
  simp [accept, h]

/-- Where no sample is listed, the step accepts the free one. -/
theorem step_of_no_inputs (s : State) (h : s.inputs = []) :
    step s = accept (Config.freePorts s.now) { s with now := s.now + 1 } := by
  have hp : s.presented = Config.freePorts s.now := by simp [State.presented, h]
  have ha : s.advance = { s with now := s.now + 1 } := by simp [State.advance, h]
  rw [step, hp, ha]

/-- A listed sample without reset: the step executes what it presents and uses it up. -/
theorem step_of_command (s : State) (p : Ports) (rest : List Ports) (hi : s.inputs = p :: rest) (hr : p.rst = false) :
    step s = exec (decode p) { s with inputs := rest, now := s.now + 1 } := by
  rw [step_of_inputs s p rest hi, accept_of_no_reset p _ hr]

/-- The command of a flat word, laid out as the next sample, is what the step executes. -/
theorem step_withFetchWord (s : State) (nbits w : Nat) :
    step (s.withFetchWord nbits w) =
      exec (decodeWord (w % 2 ^ nbits)) { s with inputs := s.inputs.tail, now := s.now + 1 } :=
  step_of_command (s.withFetchWord nbits w) (Ports.ofWord (w % 2 ^ nbits)) s.inputs.tail rfl (Ports.ofWord_rst _)

/-- Settles O6: each clause is the rule of its kind of sample, a listed command, an encoded one, the free one or a fetched word. -/
theorem stepRunsThePresentedCommand : Obligations.StepRunsThePresentedCommand := by
  refine ⟨step_of_command, ?_, step_of_no_inputs, ?_⟩
  · intro s i rest hwf hi
    rw [step_of_command s (encode i) rest hi (encode_rst i), decode_encode i hwf]
  · intro s nbits w
    exact ⟨decodeWord (w % 2 ^ nbits), rfl, step_withFetchWord s nbits w⟩

end Sys2Proof.Machine
end

section
/-! PROOF. The registers of the state (`10_state.md`): who writes them and who reads them (R21 to R27), the invariant of the result
registers (R25, R26), and what a register that is not valid may reach (R31, R32). -/

namespace Sys2Proof

/-- The operation that a sample presents has the sample's opcode (R69). -/
@[simp] theorem opcode_decode (p : Ports) : (decode p).opcode = p.op := by
  rcases decode_cases p with ⟨ho, hd⟩ | ⟨ho, hd⟩ | ⟨ho, hd⟩ | ⟨ho, hd⟩ | ⟨ho, hd⟩ | ⟨ho, hd⟩ | ⟨ho, hd⟩ | ⟨ho, hd⟩ <;>
    rw [hd, ho] <;> rfl

end Sys2Proof

namespace Sys2Proof.Machine

/-- The state that an operation leaves, operation by operation. -/
theorem exec_next_cases {i : Instr} {s t : State} (he : exec i s = .next t) :
    ((i = .nop ∨ i = .rsv6 ∨ i = .rsv7) ∧ t = s) ∨
    (∃ mask vals, i = .upd mask vals ∧ t = s.writeAx mask vals) ∨
    (∃ v, i = .cal v ∧ t = s.latchPv (toProtocolValue (cal (sext v)))) ∨
    (i = .snap ∧ t = s.latchCs (snapshot s.readAx)) ∨
    (∃ ch flags, i = .enc ch flags ∧ t = s.latchFr (encodeFrame (channelOperands ch) flags)) ∨
    (i = .tick ∧ t = (s.latchCs (snapshot s.readAx)).latchFr (tickFrame s.readAx)) := by
  simpa only [he, Host.Outcome.next.injEq] using exec_cases i s

/-! ### Results that are not valid refuse to be observed -/

theorem observePv_of_not_valid (s : State) (h : s.pvValid = false) : s.observePv = .error (.resultNotValid .pvOut) := by
  rcases observePv_cases s with ⟨hv, -⟩ | ⟨-, ho⟩
  · simp [h] at hv
  · exact ho

theorem observeCs_of_not_valid (s : State) (h : s.csValid = false) : s.observeCs = .error (.resultNotValid .csOut) := by
  rcases observeCs_cases s with ⟨hv, -⟩ | ⟨-, ho⟩
  · simp [h] at hv
  · exact ho

theorem observeFrame_of_not_valid (s : State) (h : s.frValid = false) :
    s.observeFrame = .error (.resultNotValid .frameOut) := by
  rcases observeFrame_cases s with ⟨hv, -⟩ | ⟨-, ho⟩
  · simp [h] at hv
  · exact ho

theorem memRead_of_not_valid (s : State) (a n : Nat) (hr : a + n ≤ 25) (h : s.frValid = false) :
    s.memRead a n = .error (.resultNotValid .frameOut) := by
  rcases memRead_cases s a n with ⟨hgt, -⟩ | ⟨-, -, hm⟩ | ⟨-, hv, -⟩
  · omega
  · exact hm
  · simp [h] at hv

/-- Settles O8: the reset axes are the pattern 0, and what is not valid refuses to be observed. -/
theorem resetIsNeutralAndUnobservable : Obligations.ResetIsNeutralAndUnobservable := by
  refine ⟨?_, rfl, rfl, rfl, observePv_of_not_valid _ rfl, observeCs_of_not_valid _ rfl, observeFrame_of_not_valid _ rfl, ?_⟩
  · intro i
    simp [sext_eq_toInt]
  · intro a n hr
    exact memRead_of_not_valid _ a n hr rfl

/-! ### The invariant of the result registers (R25, R26) -/

/-- The invariant speaks of valid registers only. -/
theorem inv_of_not_valid (s : State) (hcs : s.csValid = false) (hfr : s.frValid = false) : s.Inv := by
  simp [State.Inv, hcs, hfr]

/-- Settles O41: at reset neither register is valid. -/
theorem invariantHoldsAtReset : Obligations.InvariantHoldsAtReset := inv_of_not_valid _ rfl rfl

/-- The invariant reads `CS`, `FR` and their valid bits alone. -/
theorem inv_congr {s t : State} (hcs : t.cs = s.cs) (hcv : t.csValid = s.csValid) (hfr : t.fr = s.fr)
    (hfv : t.frValid = s.frValid) (h : s.Inv) : t.Inv := by
  simpa only [State.Inv, hcs, hcv, hfr, hfv] using h

theorem inv_latchCs_snapshot {s : State} (a : Vector Int 4) (h : s.Inv) : (s.latchCs (snapshot a)).Inv := by
  obtain ⟨-, hfr⟩ := h
  refine ⟨fun _ k hk => ?_, by simpa using hfr⟩
  rw [State.latchCs_cs]
  exact getElem_snapshot_neutral a k hk k.isLt

theorem inv_latchFr_encodeFrame {s : State} (x : Vector Nat 16) (flags : Byte) (h : s.Inv) :
    (s.latchFr (encodeFrame x flags)).Inv := by
  obtain ⟨hcs, -⟩ := h
  refine ⟨by simpa using hcs, fun _ => ?_⟩
  rw [State.latchFr_fr]
  exact ⟨encodeFrame_start x flags, encodeFrame_end x flags⟩

/-- An operation that writes `CS` or `FR` writes a snapshot or an encoded frame, so each keeps the invariant. -/
theorem exec_keeps_inv {i : Instr} {s t : State} (h : s.Inv) (he : exec i s = .next t) : t.Inv := by
  rcases exec_next_cases he with ⟨-, rfl⟩ | ⟨mask, vals, -, rfl⟩ | ⟨v, -, rfl⟩ | ⟨-, rfl⟩ | ⟨ch, flags, -, rfl⟩ | ⟨-, rfl⟩
  · exact h
  · exact inv_congr rfl rfl rfl rfl h
  · exact inv_congr rfl rfl rfl rfl h
  · exact inv_latchCs_snapshot _ h
  · exact inv_latchFr_encodeFrame _ _ h
  · rw [tickFrame_eq]
    exact inv_latchFr_encodeFrame _ _ (inv_latchCs_snapshot _ h)

/-- Reset meets the invariant from every state, an operation keeps it. -/
theorem accept_keeps_inv {p : Ports} {s t : State} (h : s.Inv) (ha : accept p s = .next t) : t.Inv := by
  rcases accept_cases p s with ⟨-, hx⟩ | ⟨-, hx⟩ <;> rw [hx] at ha
  · injection ha with ha
    subst ha
    exact inv_of_not_valid _ rfl rfl
  · exact exec_keeps_inv h ha

/-- Settles O42: taking the sample touches no register, and accepting it keeps the invariant. -/
theorem stepKeepsTheInvariant : Obligations.StepKeepsTheInvariant := by
  intro s t hs hstep
  have hadv : s.advance.Inv := inv_congr rfl rfl rfl rfl hs
  exact accept_keeps_inv hadv hstep

/-! ### What a host cannot tell apart stays so (R31, R32, U6)

Each write gives both states the same contents, and no operation reads a result register. -/

theorem alike_advance {s s' : State} (h : s.Alike s') : s.advance.Alike s'.advance := h

theorem alike_applyReset (s s' : State) : s.applyReset.Alike s'.applyReset := by
  simp [State.Alike]

theorem alike_writeAx {s s' : State} (mask : AxisMask) (vals : Vector AxisWord 4) (h : s.Alike s') :
    (s.writeAx mask vals).Alike (s'.writeAx mask vals) := by
  obtain ⟨hax, hresults⟩ := h
  refine ⟨?_, hresults⟩
  simp [hax]

theorem alike_latchPv {s s' : State} (v : ProtocolValue) (h : s.Alike s') : (s.latchPv v).Alike (s'.latchPv v) := by
  obtain ⟨hax, -, hcv, hfv, -, hcs, hfr⟩ := h
  exact ⟨hax, rfl, hcv, hfv, fun _ => rfl, hcs, hfr⟩

theorem alike_latchCs {s s' : State} (v : ChannelSet) (h : s.Alike s') : (s.latchCs v).Alike (s'.latchCs v) := by
  obtain ⟨hax, hpv, -, hfv, hp, -, hfr⟩ := h
  exact ⟨hax, hpv, rfl, hfv, hp, fun _ => rfl, hfr⟩

theorem alike_latchFr {s s' : State} (v : Frame) (h : s.Alike s') : (s.latchFr v).Alike (s'.latchFr v) := by
  obtain ⟨hax, hpv, hcv, -, hp, hcs, -⟩ := h
  exact ⟨hax, hpv, hcv, rfl, hp, hcs, fun _ => rfl⟩

/-- SNAP and TICK read the same integers in alike states. -/
theorem readAx_of_alike {s s' : State} (h : s.Alike s') : s'.readAx = s.readAx := by
  obtain ⟨hax, -⟩ := h
  exact readAx_congr s s' hax.symm

theorem exec_alike {s s' t : State} (i : Instr) (h : s.Alike s') (he : exec i s = .next t) :
    ∃ t', exec i s' = .next t' ∧ t.Alike t' := by
  have hread : s'.readAx = s.readAx := readAx_of_alike h
  rcases exec_next_cases he with
    ⟨rfl | rfl | rfl, rfl⟩ | ⟨mask, vals, rfl, rfl⟩ | ⟨v, rfl, rfl⟩ | ⟨rfl, rfl⟩ | ⟨ch, flags, rfl, rfl⟩ | ⟨rfl, rfl⟩
  · exact ⟨s', exec_nop s', h⟩
  · exact ⟨s', exec_rsv6 s', h⟩
  · exact ⟨s', exec_rsv7 s', h⟩
  · exact ⟨_, exec_upd mask vals s', alike_writeAx mask vals h⟩
  · exact ⟨_, exec_cal v s', alike_latchPv _ h⟩
  · exact ⟨_, exec_snap s', hread ▸ alike_latchCs _ h⟩
  · exact ⟨_, exec_enc ch flags s', alike_latchFr _ h⟩
  · exact ⟨_, exec_tick s', hread ▸ alike_latchFr _ (alike_latchCs _ h)⟩

theorem accept_alike {s s' t : State} (p : Ports) (h : s.Alike s') (ha : accept p s = .next t) :
    ∃ t', accept p s' = .next t' ∧ t.Alike t' := by
  cases hr : p.rst with
  | true =>
    simp only [accept, hr, if_true] at ha ⊢
    injection ha with ha
    subst ha
    exact ⟨_, rfl, alike_applyReset s s'⟩
  | false =>
    rw [accept_of_no_reset p s hr] at ha
    rw [accept_of_no_reset p s' hr]
    exact exec_alike _ h ha

/-- Settles O43: both states accept one and the same sample. -/
theorem invalidContentsNeverFlowOut : Obligations.InvalidContentsNeverFlowOut := by
  intro s s' t h hp hstep
  have hstep' : step s' = accept s.presented s'.advance := by rw [step, hp]
  rw [hstep']
  exact accept_alike s.presented (alike_advance h) hstep

/-! ### Who writes a register (R21, R22, R24, R25, R26) -/

theorem ax_of_exec {i : Instr} {s t : State} (he : exec i s = .next t) (hi : ∀ mask vals, i ≠ .upd mask vals) :
    t.ax = s.ax := by
  rcases exec_next_cases he with ⟨-, rfl⟩ | ⟨mask, vals, rfl, -⟩ | ⟨v, -, rfl⟩ | ⟨-, rfl⟩ | ⟨ch, flags, -, rfl⟩ | ⟨-, rfl⟩
  · rfl
  · exact absurd rfl (hi mask vals)
  · exact State.latchPv_ax _ _
  · exact State.latchCs_ax _ _
  · exact State.latchFr_ax _ _
  · rw [State.latchFr_ax, State.latchCs_ax]

theorem pv_of_exec {i : Instr} {s t : State} (he : exec i s = .next t) (hi : ∀ v, i ≠ .cal v) :
    t.pv = s.pv ∧ t.pvValid = s.pvValid := by
  rcases exec_next_cases he with ⟨-, rfl⟩ | ⟨mask, vals, -, rfl⟩ | ⟨v, rfl, -⟩ | ⟨-, rfl⟩ | ⟨ch, flags, -, rfl⟩ | ⟨-, rfl⟩
  · exact ⟨rfl, rfl⟩
  · simp
  · exact absurd rfl (hi v)
  · simp
  · simp
  · simp

theorem cs_of_exec {i : Instr} {s t : State} (he : exec i s = .next t) (hs : i ≠ .snap) (ht : i ≠ .tick) :
    t.cs = s.cs ∧ t.csValid = s.csValid := by
  rcases exec_next_cases he with ⟨-, rfl⟩ | ⟨mask, vals, -, rfl⟩ | ⟨v, -, rfl⟩ | ⟨hi, -⟩ | ⟨ch, flags, -, rfl⟩ | ⟨hi, -⟩
  · exact ⟨rfl, rfl⟩
  · simp
  · simp
  · exact absurd hi hs
  · simp
  · exact absurd hi ht

theorem fr_of_exec {i : Instr} {s t : State} (he : exec i s = .next t) (hi : ∀ ch flags, i ≠ .enc ch flags) (ht : i ≠ .tick) :
    t.fr = s.fr ∧ t.frValid = s.frValid := by
  rcases exec_next_cases he with ⟨-, rfl⟩ | ⟨mask, vals, -, rfl⟩ | ⟨v, -, rfl⟩ | ⟨-, rfl⟩ | ⟨ch, flags, rfl, -⟩ | ⟨hi', -⟩
  · exact ⟨rfl, rfl⟩
  · simp
  · simp
  · simp
  · exact absurd rfl (hi ch flags)
  · exact absurd hi' ht

/-- Settles O34: each clause is the frame of the operations that are not the register's own. -/
theorem onlyTheOwnersWriteARegister : Obligations.OnlyTheOwnersWriteARegister := by
  intro i s t he
  refine ⟨fun hne => ?_, fun hne => ?_, fun hne => ?_, fun hne => ?_⟩ <;> by_contra hi <;> push Not at hi
  · exact hne (ax_of_exec he hi)
  · obtain ⟨hpv, hv⟩ := pv_of_exec he hi
    exact hne.elim (· hpv) (· hv)
  · obtain ⟨hsnap, htick⟩ := hi
    obtain ⟨hcs, hv⟩ := cs_of_exec he hsnap htick
    exact hne.elim (· hcs) (· hv)
  · obtain ⟨henc, htick⟩ := hi
    obtain ⟨hfr, hv⟩ := fr_of_exec he henc htick
    exact hne.elim (· hfr) (· hv)

/-! ### Who reads a register (R21, R22, R27) -/

/-- Settles O36: the results of every operation but SNAP and TICK are made of operands, and only UPD writes `AX`. -/
theorem onlySnapAndTickReadTheAxes : Obligations.OnlySnapAndTickReadTheAxes := by
  intro i a s t hsnap htick he
  have hresult : ∃ t', exec i { s with ax := a } = .next t' ∧ t' = { t with ax := t'.ax } := by
    rcases exec_next_cases he with
      ⟨rfl | rfl | rfl, rfl⟩ | ⟨mask, vals, rfl, rfl⟩ | ⟨v, rfl, rfl⟩ | ⟨rfl, -⟩ | ⟨ch, flags, rfl, rfl⟩ | ⟨rfl, -⟩
    · exact ⟨_, exec_nop _, rfl⟩
    · exact ⟨_, exec_rsv6 _, rfl⟩
    · exact ⟨_, exec_rsv7 _, rfl⟩
    · exact ⟨_, exec_upd mask vals _, rfl⟩
    · exact ⟨_, exec_cal v _, rfl⟩
    · exact absurd rfl hsnap
    · exact ⟨_, exec_enc ch flags _, rfl⟩
    · exact absurd rfl htick
  obtain ⟨t', he', ht'⟩ := hresult
  exact ⟨t', he', ht', ax_of_exec he'⟩

/-- The registers after an operation depend on the registers before it alone. -/
theorem exec_registers_congr {s s' t : State} (i : Instr) (hax : s'.ax = s.ax) (hpv : s'.pv = s.pv) (hcs : s'.cs = s.cs)
    (hfr : s'.fr = s.fr) (he : exec i s = .next t) :
    ∃ t', exec i s' = .next t' ∧ t'.ax = t.ax ∧ t'.pv = t.pv ∧ t'.cs = t.cs ∧ t'.fr = t.fr := by
  have hread : s'.readAx = s.readAx := readAx_congr s s' hax
  rcases exec_next_cases he with
    ⟨rfl | rfl | rfl, rfl⟩ | ⟨mask, vals, rfl, rfl⟩ | ⟨v, rfl, rfl⟩ | ⟨rfl, rfl⟩ | ⟨ch, flags, rfl, rfl⟩ | ⟨rfl, rfl⟩
  all_goals simp [hax, hpv, hcs, hfr, hread]

/-- Settles O37: changing the valid bits leaves the registers as they are. -/
theorem noResultDependsOnAValidBit : Obligations.NoResultDependsOnAValidBit := by
  intro i b1 b2 b3 s t he
  exact exec_registers_congr (s := s) i rfl rfl rfl rfl he

/-! ### The valid bits over a run (R24 to R27) -/

/-- Induction over a run without reset: a relation between the samples, the first and the last state holds of every such run when it
holds of the empty one and each operation put in front extends it. -/
theorem drive_induction {R : List Ports → State → State → Prop} (nil : ∀ s, R [] s s)
    (cons : ∀ p ps s t u, exec (decode p) { s with now := s.now + 1 } = .next t → R ps t u → R (p :: ps) s u)
    (ps : List Ports) (s : State) (h : withoutReset ps) : ∃ t, drive ps s = .next t ∧ R ps s t := by
  induction ps generalizing s with
  | nil => exact ⟨s, drive_nil s, nil s⟩
  | cons p ps ih =>
    obtain ⟨hp, hps⟩ := List.forall_mem_cons.mp h
    obtain ⟨t, ht⟩ := accept_next p { s with now := s.now + 1 }
    obtain ⟨u, hu, hR⟩ := ih t hps
    rw [← drive_cons p ps s t ht] at hu
    rw [accept_of_no_reset p _ hp] at ht
    exact ⟨u, hu, cons p ps s t u ht hR⟩

/-- What an operation leaves in the three valid bits. -/
theorem valid_bits_of_exec {i : Instr} {s t : State} (he : exec i s = .next t) :
    (t.pvValid = true ↔ s.pvValid = true ∨ i.opcode = 0b010#3) ∧
    (t.csValid = true ↔ s.csValid = true ∨ i.opcode = 0b011#3 ∨ i.opcode = 0b101#3) ∧
    (t.frValid = true ↔ s.frValid = true ∨ i.opcode = 0b100#3 ∨ i.opcode = 0b101#3) := by
  rcases exec_next_cases he with
    ⟨rfl | rfl | rfl, rfl⟩ | ⟨mask, vals, rfl, rfl⟩ | ⟨v, rfl, rfl⟩ | ⟨rfl, rfl⟩ | ⟨ch, flags, rfl, rfl⟩ | ⟨rfl, rfl⟩
  all_goals simp [Instr.opcode]

/-- A bit that the first sample may set and the rest of the run may set is one that the run may set. -/
theorem recorded_cons {P : Ports → Prop} {p : Ports} {ps : List Ports} {before between after : Prop}
    (hfirst : between ↔ before ∨ P p) (hrest : after ↔ between ∨ ∃ q ∈ ps, P q) :
    after ↔ before ∨ ∃ q ∈ p :: ps, P q := by
  rw [hrest, hfirst, List.exists_mem_cons_iff, or_assoc]

/-- The valid bits of the last state are those of the first and what the samples between them performed. -/
def RecordsValidBits (ps : List Ports) (s t : State) : Prop :=
  (t.pvValid = true ↔ s.pvValid = true ∨ ∃ p ∈ ps, p.op = 0b010#3) ∧
  (t.csValid = true ↔ s.csValid = true ∨ ∃ p ∈ ps, p.op = 0b011#3 ∨ p.op = 0b101#3) ∧
  (t.frValid = true ↔ s.frValid = true ∨ ∃ p ∈ ps, p.op = 0b100#3 ∨ p.op = 0b101#3)

theorem recordsValidBits_nil (s : State) : RecordsValidBits [] s s := by
  simp [RecordsValidBits]

theorem recordsValidBits_cons {p : Ports} {ps : List Ports} {s t u : State}
    (he : exec (decode p) { s with now := s.now + 1 } = .next t) (h : RecordsValidBits ps t u) :
    RecordsValidBits (p :: ps) s u := by
  obtain ⟨hpv, hcs, hfr⟩ := h
  obtain ⟨hpv1, hcs1, hfr1⟩ := valid_bits_of_exec he
  rw [opcode_decode] at hpv1 hcs1 hfr1
  exact ⟨recorded_cons hpv1 hpv, recorded_cons hcs1 hcs, recorded_cons hfr1 hfr⟩

/-- Settles O40, by induction over the run. -/
theorem validBitsRecordTheOperations : Obligations.ValidBitsRecordTheOperations := by
  intro ps s h
  exact drive_induction recordsValidBits_nil (fun _ _ _ _ _ => recordsValidBits_cons) ps s h

end Sys2Proof.Machine
end

section
/-! PROOF. The payload as one integer (`20_memory.md` R43): lanes laid end to end are digits of a number, so the payload's bytes and the
stream's channels are the same number in two bases, and unpacking reads the channels back (R117, R119). -/

namespace Sys2Proof.Machine

/-- A lane laid behind the others is a digit in front of theirs: no bit of it meets theirs, so `|||` adds. -/
theorem concatLanes_push {w n : Nat} (lanes : Vector (BitVec w) n) (v : BitVec w) :
    concatLanes (lanes.push v) = concatLanes lanes + v.toNat * 2 ^ (w * n) := by
  have hor : concatLanes (lanes.push v) = concatLanes lanes ||| v.toNat <<< (w * n) := by
    simp [concatLanes, List.finRange_succ_last, List.foldl_map, Vector.getElem_push]
  rw [hor, Nat.or_comm, ← Nat.shiftLeft_add_eq_or_of_lt (concatLanes_lt lanes), Nat.shiftLeft_eq, Nat.add_comm]

/-- The concatenation is the number whose digits in base `2 ^ w` are the lanes, the first one lowest. -/
theorem concatLanes_eq_sum {w n : Nat} (lanes : Vector (BitVec w) n) :
    concatLanes lanes = ∑ k : Fin n, lanes[k].toNat * 2 ^ (w * k.val) := by
  induction n with
  | zero => rfl
  | succ n ih =>
    obtain ⟨front, v, rfl⟩ : ∃ (front : Vector (BitVec w) n) (v : BitVec w), lanes = front.push v :=
      ⟨lanes.pop, lanes.back, (Vector.push_pop_back lanes).symm⟩
    rw [concatLanes_push, ih, Fin.sum_univ_castSucc]
    simp

/-- The payload's bytes laid end to end are the stream they were cut from: 176 bits either way. -/
theorem concatLanes_pack (chans : ChannelSet) : concatLanes (pack chans) = bitstream chans :=
  concatLanes_sliceLanes 8 22 (bitstream chans) (by decide) (concatLanes_lt chans)

/-- Settles O24: both sums are the bitstream, read by bytes and by channels. -/
theorem payloadIsTheStreamLittleEndian : Obligations.PayloadIsTheStreamLittleEndian := by
  intro chans
  calc ∑ i : Fin 22, (pack chans)[i].toNat * 2 ^ (8 * i.val)
      = concatLanes (pack chans) := (concatLanes_eq_sum _).symm
    _ = bitstream chans := concatLanes_pack chans
    _ = ∑ k : Fin 16, chans[k].toNat * 2 ^ (11 * k.val) := concatLanes_eq_sum chans

@[simp] theorem unpack_pack (chans : ChannelSet) : unpack (pack chans) = chans := by
  rw [unpack, concatLanes_pack, bitstream, sliceLanes_concatLanes]

theorem unpack_payloadOf_encodeFrame (x : Vector Nat 16) (flags : Byte) :
    unpack (payloadOf (encodeFrame x flags)) = maskChannels x := by
  rw [encodeFrame, payloadOf_assemble, unpack_pack]

theorem unpack_payloadOf_tickFrame (a : Vector Int 4) : unpack (payloadOf (tickFrame a)) = snapshot a := by
  rw [tickFrame_eq, unpack_payloadOf_encodeFrame, maskChannels_channelInts]

end Sys2Proof.Machine
end

section
/-! PROOF. Operations repeated (`20_memory.md` R46). -/

namespace Sys2Proof.Machine

theorem writeAx_writeAx (s : State) (mask : AxisMask) (vals : Vector AxisWord 4) :
    (s.writeAx mask vals).writeAx mask vals = s.writeAx mask vals := by
  have hax : ((s.writeAx mask vals).writeAx mask vals).ax = (s.writeAx mask vals).ax := by
    ext1 i hi
    rw [getElem_writeAx _ _ _ i hi, getElem_writeAx _ _ _ i hi]
    split <;> rfl
  rw [writeAx_frame (s.writeAx mask vals), hax]

/-! A result latched again over itself, and a TICK's two results together. -/

theorem latchPv_latchPv (s : State) (v : ProtocolValue) : (s.latchPv v).latchPv v = s.latchPv v := rfl

theorem latchCs_latchCs (s : State) (v : ChannelSet) : (s.latchCs v).latchCs v = s.latchCs v := rfl

theorem latchFr_latchFr (s : State) (v : Frame) : (s.latchFr v).latchFr v = s.latchFr v := rfl

theorem latchFr_latchCs_comm (s : State) (v : Frame) (w : ChannelSet) : (s.latchFr v).latchCs w = (s.latchCs w).latchFr v := rfl

/-! A latch leaves the axis integers. -/

@[simp] theorem readAx_latchCs (s : State) (v : ChannelSet) : (s.latchCs v).readAx = s.readAx :=
  readAx_congr _ _ (State.latchCs_ax s v)

@[simp] theorem readAx_latchFr (s : State) (v : Frame) : (s.latchFr v).readAx = s.readAx :=
  readAx_congr _ _ (State.latchFr_ax s v)

/-- Settles O35: the second time an operation latches what it latched the first time, since no operation that reads the axes writes
them. -/
theorem operationsAreIdempotent : Obligations.OperationsAreIdempotent := by
  intro i s t he
  rcases exec_next_cases he with
    ⟨rfl | rfl | rfl, rfl⟩ | ⟨mask, vals, rfl, rfl⟩ | ⟨v, rfl, rfl⟩ | ⟨rfl, rfl⟩ | ⟨ch, flags, rfl, rfl⟩ | ⟨rfl, rfl⟩
  · exact exec_nop t
  · exact exec_rsv6 t
  · exact exec_rsv7 t
  · rw [exec_upd, writeAx_writeAx]
  · rw [exec_cal, latchPv_latchPv]
  · rw [exec_snap, readAx_latchCs, latchCs_latchCs]
  · rw [exec_enc, latchFr_latchFr]
  · rw [exec_tick, readAx_latchFr, readAx_latchCs, latchFr_latchCs_comm, latchCs_latchCs, latchFr_latchFr]

end Sys2Proof.Machine
end

section
/-! PROOF. Runs that end in a snapshot (`20_memory.md` R49, R52, `42_store_snapshot_tick.md` R135): the axes after a run, and what SNAP and
TICK latch from them. -/

namespace Sys2Proof.Machine

/-! ### The axes after a run without reset -/

/-- A sample put in front of a run gives the axis the value that the rest of the run finds there. -/
theorem getD_lastWrite_cons (i : Fin 4) (p : Ports) (ps : List Ports) (v : AxisWord) :
    (lastWrite i (p :: ps)).getD v =
      (lastWrite i ps).getD (if p.op = 0b001#3 ∧ p.updMask.getLsbD i then p.updVal[i] else v) := by
  cases hrest : lastWrite i ps with
  | some w => simp [lastWrite, hrest]
  | none =>
    simp only [lastWrite, hrest]
    split <;> rfl

/-- An axis after the operation that a sample presents, read off the ports. -/
theorem getElem_ax_of_exec_decode {p : Ports} {s t : State} (he : exec (decode p) s = .next t) (i : Fin 4) :
    t.ax[i] = if p.op = 0b001#3 ∧ p.updMask.getLsbD i then p.updVal[i] else s.ax[i] := by
  by_cases hop : p.op = 0b001#3
  · rw [decode_of_op_upd p hop, exec_upd] at he
    injection he with he
    subst he
    rw [Fin.getElem_fin, getElem_writeAx, getElem_updCanonicalVals]
    simp only [hop, true_and]
    split <;> rfl
  · have hne : ∀ mask vals, decode p ≠ .upd mask vals := fun mask vals hd =>
      hop ((opcode_decode p).symm.trans (congrArg Instr.opcode hd))
    simp [ax_of_exec he hne, hop]

/-- Each axis of the last state holds the value of the latest UPD among the samples that selects it, or what it held in the first. -/
def HoldsLastWrites (ps : List Ports) (s t : State) : Prop :=
  ∀ i : Fin 4, t.ax[i] = (lastWrite i ps).getD s.ax[i]

theorem holdsLastWrites_nil (s : State) : HoldsLastWrites [] s s := fun _ => rfl

theorem holdsLastWrites_cons {p : Ports} {ps : List Ports} {s t u : State}
    (he : exec (decode p) { s with now := s.now + 1 } = .next t) (h : HoldsLastWrites ps t u) :
    HoldsLastWrites (p :: ps) s u := by
  intro i
  rw [h i, getD_lastWrite_cons, getElem_ax_of_exec_decode he]

theorem drive_holdsLastWrites (ps : List Ports) (s : State) (h : withoutReset ps) :
    ∃ t, drive ps s = .next t ∧ HoldsLastWrites ps s t :=
  drive_induction holdsLastWrites_nil (fun _ _ _ _ _ => holdsLastWrites_cons) ps s h

/-! ### The step that ends a run -/

theorem drive_append (ps qs : List Ports) {s t : State} (h : drive ps s = .next t) : drive (ps ++ qs) s = drive qs t := by
  induction ps generalizing s with
  | nil =>
    rw [drive_nil] at h
    injection h with h
    rw [List.nil_append, h]
  | cons p ps ih =>
    obtain ⟨u, hu⟩ := accept_next p { s with now := s.now + 1 }
    rw [drive_cons p ps s u hu] at h
    rw [List.cons_append, drive_cons p (ps ++ qs) s u hu, ih h]

/-- A run that ends in a sample without reset ends in the operation that it presents. -/
theorem drive_concat {ps : List Ports} {p : Ports} {s t u : State} (h : drive ps s = .next t) (hp : p.rst = false)
    (he : exec (decode p) { t with now := t.now + 1 } = .next u) : drive (ps ++ [p]) s = .next u := by
  rw [← accept_of_no_reset p _ hp] at he
  rw [drive_append ps [p] h, drive_cons p [] t u he, drive_nil]

/-! ### What SNAP and TICK latch -/

/-- The calibrator's result fits its register (R93). -/
theorem toNat_toProtocolValue_cal (n : Int) : ((toProtocolValue (cal n)).toNat : Int) = cal n := by
  have hcal := cal_eq n
  exact toInt_toProtocolValue_toNat (cal n) (by omega) (by omega)

theorem toNat_snapshot_readAx (s : State) (k : Nat) (h : k < 4) :
    ((snapshot s.readAx)[k].toNat : Int) = cal (sext s.ax[k]) := by
  rw [getElem_snapshot_axis _ k h, toNat_toProtocolValue_cal, getElem_readAx]

/-- SNAP and TICK latch one and the same ChannelSet, the snapshot of the axes. -/
theorem cs_of_exec_snapshot {i : Instr} {s t : State} (he : exec i s = .next t) (hi : i = .snap ∨ i = .tick) :
    t.csValid = true ∧ t.cs = snapshot s.readAx := by
  rcases hi with rfl | rfl
  · rw [exec_snap] at he
    injection he with he
    simp [← he]
  · rw [exec_tick] at he
    injection he with he
    simp [← he]

theorem fr_of_exec_tick {s t : State} (he : exec .tick s = .next t) : t.frValid = true ∧ t.fr = tickFrame s.readAx := by
  rw [exec_tick] at he
  injection he with he
  simp [← he]

/-- Settles O39: the run leaves the latest value in every axis, and its last sample latches the snapshot of those axes. -/
theorem snapshotSeesEveryEarlierUpdate : Obligations.SnapshotSeesEveryEarlierUpdate := by
  intro ps p s hps hp hop
  obtain ⟨t, hdrive, hax⟩ := drive_holdsLastWrites ps s hps
  have hi : decode p = .snap ∨ decode p = .tick := hop.imp (decode_of_op_snap p) (decode_of_op_tick p)
  obtain ⟨u, hacc⟩ := accept_next p { t with now := t.now + 1 }
  rw [accept_of_no_reset p _ hp] at hacc
  obtain ⟨hvalid, hcs⟩ := cs_of_exec_snapshot hacc hi
  refine ⟨u, drive_concat hdrive hp hacc, hvalid, fun k hk => ?_, fun k hk => ?_, fun htick => ?_⟩
  · rw [hcs, toNat_snapshot_readAx _ k hk]
    exact congrArg (fun v => cal (sext v)) (hax ⟨k, hk⟩)
  · rw [hcs]
    exact getElem_snapshot_neutral _ k hk k.isLt
  · rw [decode_of_op_tick p htick] at hacc
    obtain ⟨hfv, hfr⟩ := fr_of_exec_tick hacc
    rw [hcs, hfr, unpack_payloadOf_tickFrame]
    exact ⟨hfv, rfl⟩

end Sys2Proof.Machine
end

section
/-! PROOF. The flat word of a command (log 6): the ports are laid end to end, so each port is cut out again where it was laid (R68 to
R73). -/

namespace Sys2Proof.Machine

/-- A field laid above what is already there meets no bit of it, so `|||` adds. -/
theorem or_shiftLeft_eq_add {low field : Nat} (pos : Nat) (h : low < 2 ^ pos) :
    low ||| field <<< pos = low + field * 2 ^ pos := by
  rw [Nat.or_comm, ← Nat.shiftLeft_add_eq_or_of_lt h, Nat.shiftLeft_eq, Nat.add_comm]

/-- A word is read back from any integer whose low bits are its own. -/
theorem ofNat_of_mod_eq {w n : Nat} {b : BitVec w} (h : n % 2 ^ w = b.toNat) : BitVec.ofNat w n = b :=
  BitVec.eq_of_toNat_eq ((BitVec.toNat_ofNat n w).trans h)

/-- Cutting lanes out reads the bits of the lanes alone, whatever stands above them. -/
theorem sliceLanes_mod (w n p : Nat) : sliceLanes w n (p % 2 ^ (w * n)) = sliceLanes w n p := by
  ext1 k hk
  rw [getElem_sliceLanes, getElem_sliceLanes]
  refine BitVec.eq_of_getLsbD_eq fun j hj => ?_
  have hlane : w * k + j < w * n :=
    calc w * k + j < w * k + w := Nat.add_lt_add_left hj _
      _ = w * (k + 1) := (Nat.mul_succ w k).symm
      _ ≤ w * n := Nat.mul_le_mul_left w hk
  simp [getLsbD_sliceLane, Nat.testBit_mod_two_pow, hlane]

/-- Lanes are read back from any integer whose low bits are their concatenation. -/
theorem sliceLanes_of_mod_eq {w n p : Nat} {lanes : Vector (BitVec w) n} (h : p % 2 ^ (w * n) = concatLanes lanes) :
    sliceLanes w n p = lanes := by
  rw [← sliceLanes_mod, h, sliceLanes_concatLanes]

end Sys2Proof.Machine

namespace Sys2Proof

open Machine

/-- The flat word is a sum, since each port ends where the next one begins. -/
theorem Ports.toWord_eq_sum (p : Ports) :
    p.toWord = p.op.toNat + p.updMask.toNat * 2 ^ 3 + concatLanes p.updVal * 2 ^ 7 + p.calIn.toNat * 2 ^ 71
      + concatLanes p.encCh * 2 ^ 87 + p.encFlags.toNat * 2 ^ 343 := by
  have hop := p.op.isLt
  have hmask := p.updMask.isLt
  have hval : concatLanes p.updVal < 2 ^ 64 := concatLanes_lt p.updVal
  have hcal := p.calIn.isLt
  have hch : concatLanes p.encCh < 2 ^ 256 := concatLanes_lt p.encCh
  rw [Ports.toWord, or_shiftLeft_eq_add 3, or_shiftLeft_eq_add 7, or_shiftLeft_eq_add 71, or_shiftLeft_eq_add 87,
    or_shiftLeft_eq_add 343] <;> omega

/-- What a flat word drives is what it was laid out from; only `rst` has no place in it. -/
theorem Ports.ofWord_toWord (p : Ports) (h : p.rst = false) : Ports.ofWord p.toWord = p := by
  have hw := p.toWord_eq_sum
  have hop := p.op.isLt
  have hmask := p.updMask.isLt
  have hval : concatLanes p.updVal < 2 ^ 64 := concatLanes_lt p.updVal
  have hcal := p.calIn.isLt
  have hch : concatLanes p.encCh < 2 ^ 256 := concatLanes_lt p.encCh
  have hflags := p.encFlags.isLt
  have op_eq : BitVec.ofNat 3 p.toWord = p.op := ofNat_of_mod_eq (by omega)
  have updMask_eq : BitVec.ofNat 4 (p.toWord >>> 3) = p.updMask := ofNat_of_mod_eq (by omega)
  have updVal_eq : sliceLanes 16 4 (p.toWord >>> 7) = p.updVal := sliceLanes_of_mod_eq (by omega)
  have calIn_eq : BitVec.ofNat 16 (p.toWord >>> 71) = p.calIn := ofNat_of_mod_eq (by omega)
  have encCh_eq : sliceLanes 16 16 (p.toWord >>> 87) = p.encCh := sliceLanes_of_mod_eq (by omega)
  have encFlags_eq : BitVec.ofNat 8 (p.toWord >>> 343) = p.encFlags := ofNat_of_mod_eq (by omega)
  rw [Ports.ofWord, op_eq, updMask_eq, updVal_eq, calIn_eq, encCh_eq, encFlags_eq, ← h]

theorem decodeWord_encodeWord (i : Instr) (h : i.wellFormed = true) : decodeWord (encodeWord i) = i := by
  rw [decodeWord, encodeWord, Ports.ofWord_toWord _ (encode_rst i), decode_encode i h]

/-- Settles O2: a canonical operation is read back from its ports, and the flat word drives those ports. -/
theorem decodeInvertsEncode : Obligations.DecodeInvertsEncode := fun i h =>
  ⟨decode_encode i h, decodeWord_encodeWord i h, encode_rst i⟩

end Sys2Proof
end

section
/-! PROOF. The decoder reads the ports of the presented format alone, and its terms are canonical (R69, R71, R72; log 11). -/

namespace Sys2Proof

theorem getElem_fin_updCanonicalVals (mask : AxisMask) (vals : Vector AxisWord 4) (i : Fin 4) :
    (updCanonicalVals mask vals)[i] = if mask.getLsbD i.val then vals[i] else 0#16 :=
  getElem_updCanonicalVals mask vals i.val i.isLt

/-- A canonical UPD gives zero for every axis that its mask does not select. -/
theorem wellFormed_upd_iff (mask : AxisMask) (vals : Vector AxisWord 4) :
    (Instr.upd mask vals).wellFormed = true ↔ ∀ i : Fin 4, mask.getLsbD i.val = true ∨ vals[i] = 0#16 := by
  simp [Instr.wellFormed, updLaneCanonical]

theorem wellFormed_upd_updCanonicalVals (mask : AxisMask) (vals : Vector AxisWord 4) :
    (Instr.upd mask (updCanonicalVals mask vals)).wellFormed = true := by
  rw [wellFormed_upd_iff]
  intro i
  rw [getElem_fin_updCanonicalVals]
  cases mask.getLsbD i.val with
  | true => exact .inl rfl
  | false => exact .inr rfl

/-- The canonical form depends on the selected values alone. -/
theorem updCanonicalVals_congr (mask : AxisMask) (vals vals' : Vector AxisWord 4)
    (h : ∀ i : Fin 4, mask.getLsbD i.val = true → vals[i] = vals'[i]) :
    updCanonicalVals mask vals = updCanonicalVals mask vals' := by
  ext1 i hi
  rw [getElem_updCanonicalVals, getElem_updCanonicalVals]
  split
  · next hsel => exact h ⟨i, hi⟩ hsel
  · rfl

/-- Settles O1: each opcode value is a row of the decoder. -/
theorem everyOpcodeSelectsItsRow : Obligations.EveryOpcodeSelectsItsRow := fun p =>
  ⟨decode_of_op_nop p, fun h => ⟨_, decode_of_op_upd p h, getElem_fin_updCanonicalVals p.updMask p.updVal⟩,
    decode_of_op_cal p, decode_of_op_snap p, decode_of_op_enc p, decode_of_op_tick p, decode_of_op_rsv6 p, decode_of_op_rsv7 p⟩

/-- Settles O5: each word is evaluated. -/
theorem sampleWordsDecode : Obligations.SampleWordsDecode := by
  unfold Obligations.SampleWordsDecode
  decide

/-- Two samples that agree on the opcode and on the ports of its format present one operation. -/
theorem decode_congr {p q : Ports} (hop : p.op = q.op)
    (hupd : p.op = 0b001#3 →
      p.updMask = q.updMask ∧ ∀ i : Fin 4, p.updMask.getLsbD i.val = true → p.updVal[i] = q.updVal[i])
    (hcal : p.op = 0b010#3 → p.calIn = q.calIn)
    (henc : p.op = 0b100#3 → p.encCh = q.encCh ∧ p.encFlags = q.encFlags) : decode p = decode q := by
  rcases decode_cases p with ⟨ho, hd⟩ | ⟨ho, hd⟩ | ⟨ho, hd⟩ | ⟨ho, hd⟩ | ⟨ho, hd⟩ | ⟨ho, hd⟩ | ⟨ho, hd⟩ | ⟨ho, hd⟩ <;>
    have hq := hop.symm.trans ho
  · rw [hd, decode_of_op_nop q hq]
  · obtain ⟨hmask, hvals⟩ := hupd ho
    rw [hd, decode_of_op_upd q hq, updCanonicalVals_congr _ _ _ hvals, hmask]
  · rw [hd, decode_of_op_cal q hq, hcal ho]
  · rw [hd, decode_of_op_snap q hq]
  · obtain ⟨hch, hflags⟩ := henc ho
    rw [hd, decode_of_op_enc q hq, hch, hflags]
  · rw [hd, decode_of_op_tick q hq]
  · rw [hd, decode_of_op_rsv6 q hq]
  · rw [hd, decode_of_op_rsv7 q hq]

theorem wellFormed_decode (p : Ports) : (decode p).wellFormed = true := by
  rcases decode_cases p with ⟨-, hd⟩ | ⟨-, hd⟩ | ⟨-, hd⟩ | ⟨-, hd⟩ | ⟨-, hd⟩ | ⟨-, hd⟩ | ⟨-, hd⟩ | ⟨-, hd⟩ <;> rw [hd]
  case inr.inl => exact wellFormed_upd_updCanonicalVals _ _
  all_goals rfl

end Sys2Proof

namespace Sys2Proof.Machine

/-- Settles O3: a step reads `rst` and the operation presented. -/
theorem unusedPortsHaveNoEffect : Obligations.UnusedPortsHaveNoEffect := by
  intro p q hrst hop hupd hcal henc s
  rw [accept, accept, hrst, decode_congr hop hupd hcal henc]

/-- The masked write reads the selected values alone. -/
theorem writeAx_updCanonicalVals (s : State) (mask : AxisMask) (vals : Vector AxisWord 4) :
    s.writeAx mask (updCanonicalVals mask vals) = s.writeAx mask vals := by
  have hax : (s.writeAx mask (updCanonicalVals mask vals)).ax = (s.writeAx mask vals).ax := by
    ext1 i hi
    rw [getElem_writeAx _ _ _ i hi, getElem_writeAx _ _ _ i hi, getElem_updCanonicalVals]
    split <;> rfl
  rw [writeAx_frame s mask (updCanonicalVals mask vals), hax]
  rfl

/-- Settles O4: the one decoded operation that has a canonical form is UPD, and its masked write does not read what that form drops. -/
theorem canonicalUpdActsAlike : Obligations.CanonicalUpdActsAlike := by
  refine ⟨wellFormed_decode, fun mask vals s => ⟨wellFormed_upd_updCanonicalVals mask vals, ?_⟩⟩
  rw [exec_upd, exec_upd, writeAx_updCanonicalVals]

end Sys2Proof.Machine
end

section
/-! PROOF. The payload byte by byte (R67): the eight stream bits of a byte lie within one channel or across two. -/

namespace Sys2Proof.Machine

theorem testBit_bitSlice (v hi lo m : Nat) :
    (bitSlice v hi lo).testBit m = (decide (m < hi - lo + 1) && v.testBit (lo + m)) := by
  rw [bitSlice, Nat.testBit_mod_two_pow, Nat.testBit_div_two_pow, Nat.add_comm m lo]

/-- Bit `m` of a payload byte is bit `j` of channel `k` where both name one bit of the stream (R43, R66). -/
theorem testBit_encodeFrame_byte (x : Vector Nat 16) (flags : Byte) {i m j : Nat} {k : Fin 16} (hi : i < 22) (hm : m < 8)
    (hj : j < 11) (hstream : 8 * i + m = 11 * k.val + j) :
    (encodeFrame x flags)[i + 1].toNat.testBit m = (x[k] % 2048).testBit j := by
  calc (encodeFrame x flags)[i + 1].toNat.testBit m
      = (pack (maskChannels x))[i].getLsbD m := by rw [encodeFrame_payload x flags i hi, BitVec.getLsbD]
    _ = (bitstream (maskChannels x)).testBit (11 * k.val + j) := by
        rw [getLsbD_pack _ i hi, decide_eq_true hm, Bool.true_and, hstream]
    _ = (mask11 x[k]).getLsbD j := by
        rw [testBit_bitstream _ k.val k.isLt j hj, getElem_maskChannels, Fin.getElem_fin]
    _ = (x[k] % 2048).testBit j := by rw [BitVec.getLsbD, toNat_mask11]

theorem testBit_toNat_byte_of_ge (b : Byte) {m : Nat} (hm : ¬ m < 8) : b.toNat.testBit m = false :=
  BitVec.getLsbD_of_ge b m (Nat.le_of_not_lt hm)

/-- A byte whose eight bits lie within channel `k` is a slice of it. -/
theorem encodeFrame_byte_within (x : Vector Nat 16) (flags : Byte) {i : Nat} {k : Fin 16} {hi lo : Nat}
    (hbyte : i < 22 := by decide) (hlo : 8 * i = 11 * k.val + lo := by decide) (hhi : hi = lo + 7 := by decide)
    (hin : hi ≤ 10 := by decide) :
    (encodeFrame x flags)[i + 1].toNat = bitSlice (x[k] % 2048) hi lo := by
  refine Nat.eq_of_testBit_eq fun m => ?_
  rw [testBit_bitSlice]
  by_cases hm : m < 8
  · rw [testBit_encodeFrame_byte x flags (k := k) (j := lo + m) hbyte hm (by omega) (by omega)]
    simp [show m < hi - lo + 1 by omega]
  · rw [testBit_toNat_byte_of_ge _ hm]
    simp [show ¬ m < hi - lo + 1 by omega]

/-- A byte that begins in channel `k` and ends in the next one has the top bits of the first below the low bits of the second. -/
theorem encodeFrame_byte_across (x : Vector Nat 16) (flags : Byte) {i : Nat} {k k' : Fin 16} {lo hi pos : Nat}
    (hbyte : i < 22 := by decide) (hlo : 8 * i = 11 * k.val + lo := by decide) (hnext : k'.val = k.val + 1 := by decide)
    (hin : lo ≤ 10 := by decide) (hpos : lo + pos = 11 := by decide) (hhi : hi + pos = 7 := by decide) :
    (encodeFrame x flags)[i + 1].toNat = bitSlice (x[k] % 2048) 10 lo ||| (bitSlice (x[k'] % 2048) hi 0 <<< pos) := by
  refine Nat.eq_of_testBit_eq fun m => ?_
  rw [Nat.testBit_or, Nat.testBit_shiftLeft, testBit_bitSlice, testBit_bitSlice, Nat.zero_add]
  by_cases hfirst : m < pos
  · rw [testBit_encodeFrame_byte x flags (k := k) (j := lo + m) hbyte (by omega) (by omega) (by omega)]
    simp [show m < 10 - lo + 1 by omega, hfirst]
  · have hbelow : ¬ m < 10 - lo + 1 := by omega
    by_cases hm : m < 8
    · rw [testBit_encodeFrame_byte x flags (k := k') (j := m - pos) hbyte hm (by omega) (by omega)]
      simp [hbelow, Nat.le_of_not_lt hfirst, show m - pos < hi + 1 by omega]
    · rw [testBit_toNat_byte_of_ge _ hm]
      simp [hbelow, show ¬ m - pos < hi + 1 by omega]

/-- Settles O21: each row of the table is a byte within one channel or across two. -/
theorem payloadBytesFollowTheTable : Obligations.PayloadBytesFollowTheTable := by
  intro x flags
  exact ⟨encodeFrame_byte_within x flags, encodeFrame_byte_across x flags, encodeFrame_byte_across x flags,
    encodeFrame_byte_within x flags, encodeFrame_byte_across x flags, encodeFrame_byte_across x flags,
    encodeFrame_byte_across x flags, encodeFrame_byte_within x flags, encodeFrame_byte_across x flags,
    encodeFrame_byte_across x flags, encodeFrame_byte_within x flags,
    encodeFrame_byte_within x flags, encodeFrame_byte_across x flags, encodeFrame_byte_across x flags,
    encodeFrame_byte_within x flags, encodeFrame_byte_across x flags, encodeFrame_byte_across x flags,
    encodeFrame_byte_across x flags, encodeFrame_byte_within x flags, encodeFrame_byte_across x flags,
    encodeFrame_byte_across x flags, encodeFrame_byte_within x flags⟩

end Sys2Proof.Machine
end

section
/-! PROOF. The textual form (R76, R77): what its literals stand for, and the operations its lines answer. -/

namespace Sys2Proof.Machine

/-! ### Literals -/

/-- An integer literal is accepted exactly when some pattern has its value, and then it is that pattern. -/
theorem axisOfInt_eq_ok_iff (n : Int) (w : AxisWord) : axisOfInt n = .ok w ↔ w.toInt = n := by
  have hw := w.toInt_lt
  have hw' := w.le_toInt
  by_cases h : -32768 ≤ n ∧ n ≤ 32767
  · have hn : (BitVec.ofInt 16 n).toInt = n := BitVec.toInt_ofInt_eq_self (by decide) (by omega) (by omega)
    rw [axisOfInt, if_pos h, Except.ok.injEq, ← BitVec.toInt_inj, hn, eq_comm]
  · rw [axisOfInt, if_neg h]
    refine iff_of_false nofun ?_
    omega

theorem word_real_of_int {r : ℚ} {n : Int} (h : (n : ℚ) = r * 2 ^ 14) : (AxisLit.real r).word = axisOfInt n := by
  simp [AxisLit.word, ← h]

theorem word_real_of_not_int {r : ℚ} (h : ¬ ∃ n : Int, (n : ℚ) = r * 2 ^ 14) :
    (AxisLit.real r).word = .error .notRepresentable := by
  have hden : (r * 2 ^ 14).den ≠ 1 := fun hd => h ⟨_, (Rat.den_eq_one_iff _).mp hd⟩
  simp [AxisLit.word, hden]

/-- Settles O48: a literal whose scaled value is an integer is read as that integer, any other is an error. -/
theorem realLiteralsAreExact : Obligations.RealLiteralsAreExact := by
  intro r
  refine ⟨fun w => ?_, word_real_of_not_int⟩
  by_cases hint : ∃ n : Int, (n : ℚ) = r * 2 ^ 14
  · obtain ⟨n, hn⟩ := hint
    rw [word_real_of_int hn, axisOfInt_eq_ok_iff, ← hn, Int.cast_inj]
  · rw [word_real_of_not_int hint]
    exact iff_of_false nofun fun hw => hint ⟨_, hw⟩

theorem unsignedLit_toNat {w : Nat} (b : BitVec w) : unsignedLit w b.toNat = .ok b := by
  simp [unsignedLit, b.isLt]

/-! ### Lines -/

/-- What a sequence of two parts answers, the second made from the first. -/
theorem ok_of_bind {ε α β : Type} {x : Except ε α} {f : α → Except ε β} {b : β} (h : x >>= f = .ok b) :
    ∃ a, x = .ok a ∧ f a = .ok b := by
  cases x with
  | error e => cases h
  | ok a => exact ⟨a, rfl, h⟩

/-- UPD and SETAX are answered in the canonical form, CENTER selects every axis, and no other operation has an ignored value. -/
theorem wellFormed_of_toInstr {a : Asm} {i : Instr} (h : a.toInstr = .ok i) : i.wellFormed = true := by
  cases a with
  | nop => cases h; rfl
  | upd mask v0 v1 v2 v3 =>
    obtain ⟨m, -, h⟩ := ok_of_bind h
    obtain ⟨w0, -, h⟩ := ok_of_bind h
    obtain ⟨w1, -, h⟩ := ok_of_bind h
    obtain ⟨w2, -, h⟩ := ok_of_bind h
    obtain ⟨w3, -, h⟩ := ok_of_bind h
    cases h
    exact wellFormed_upd_updCanonicalVals m #v[w0, w1, w2, w3]
  | cal v =>
    obtain ⟨w, -, h⟩ := ok_of_bind h
    cases h; rfl
  | snap => cases h; rfl
  | enc ch flags =>
    obtain ⟨cs, -, h⟩ := ok_of_bind h
    obtain ⟨f, -, h⟩ := ok_of_bind h
    cases h; rfl
  | tick => cases h; rfl
  | setax name v =>
    obtain ⟨w, -, h⟩ := ok_of_bind h
    cases h
    exact wellFormed_upd_updCanonicalVals _ _
  | center => cases h; rfl
  | encn flags =>
    obtain ⟨f, -, h⟩ := ok_of_bind h
    cases h; rfl

/-- Settles O49: a canonical term is read back from its ports. -/
theorem assembledOperationsAreCanonical : Obligations.AssembledOperationsAreCanonical := fun _ i h =>
  have hwf := wellFormed_of_toInstr h
  ⟨hwf, decode_encode i hwf⟩

/-! ### The pseudo-operations -/

theorem toInstr_setax (name : AxisName) {v : AxisLit} {w : AxisWord} (h : v.word = .ok w) :
    Asm.toInstr (.setax name v) =
      .ok (.upd (maskOf (axisIndex name)) (updCanonicalVals (maskOf (axisIndex name)) (Vector.replicate 4 w))) := by
  rw [Asm.toInstr, h]
  rfl

theorem toInstr_encn (flags : Byte) :
    Asm.toInstr (.encn flags.toNat) = .ok (.enc (Vector.replicate 16 1024#16) flags) := by
  rw [Asm.toInstr, unsignedLit_toNat]
  rfl

/-- The mask of one axis selects that axis and no other. -/
theorem getLsbD_maskOf (i j : Fin 4) : (maskOf i).getLsbD j.val = decide (j = i) := by
  revert i j
  decide

/-- Setting one axis, whatever the values of the others. -/
theorem getElem_writeAx_maskOf (s : State) (i j : Fin 4) (w : AxisWord) :
    (s.writeAx (maskOf i) (Vector.replicate 4 w)).ax[j] = if j = i then w else s.ax[j] := by
  rw [Fin.getElem_fin, getElem_writeAx, getLsbD_maskOf]
  simp

theorem toList_assemble (payload : Payload) (flags : Byte) :
    (assemble payload flags).toList = Config.START :: (payload.toList ++ [flags, Config.END]) := by
  refine List.ext_getElem (by simp) fun i hi _ => ?_
  rw [Vector.length_toList] at hi
  rw [Vector.getElem_toList]
  rcases i with _ | i
  · simp
  · by_cases h : i < 22
    · rw [assemble_payload _ _ i h]
      simp [h]
    · obtain rfl | rfl : i = 22 ∨ i = 23 := by omega
      · simp
      · simp

/-- The payload of sixteen neutral channels. -/
theorem pack_neutral :
    pack (maskChannels (channelOperands (Vector.replicate 16 1024#16))) =
      #v[0x00#8, 0x04#8, 0x20#8, 0x00#8, 0x01#8, 0x08#8, 0x40#8, 0x00#8, 0x02#8, 0x10#8, 0x80#8, 0x00#8, 0x04#8, 0x20#8, 0x00#8,
        0x01#8, 0x08#8, 0x40#8, 0x00#8, 0x02#8, 0x10#8, 0x80#8] := by
  decide

/-- Settles O47: SETAX is the masked write of one axis, CENTER of all four, and ENCN's payload is the neutral one. -/
theorem pseudoOperationsExpand : Obligations.PseudoOperationsExpand := by
  refine ⟨fun name v w hw => ?_, ?_, fun flags => ?_⟩
  · refine ⟨_, toInstr_setax name hw, fun s => ⟨_, exec_upd _ _ s, ?_⟩⟩
    rw [writeAx_updCanonicalVals]
    refine ⟨?_, fun j hj => ?_, writeAx_frame s _ _⟩
    · rw [getElem_writeAx_maskOf, if_pos rfl]
    · rw [getElem_writeAx_maskOf, if_neg hj]
  · refine ⟨_, rfl, fun s => ⟨_, exec_upd _ _ s, fun j => ?_, writeAx_frame s _ _⟩⟩
    have hj : (s.writeAx 0b1111#4 (Vector.replicate 4 0#16)).ax[j] = 0#16 := by
      have hsel : (0b1111#4).getLsbD j.val = true := by
        revert j
        decide
      rw [Fin.getElem_fin, getElem_writeAx _ _ _ _ j.isLt, hsel]
      simp
    rw [hj]
    rfl
  · refine ⟨_, toInstr_encn flags, fun s => ⟨_, exec_enc _ flags s, ?_, State.latchFr_frValid s _⟩⟩
    rw [State.latchFr_fr, encodeFrame, pack_neutral, ← Vector.toList_inj, toList_assemble]
    rfl

end Sys2Proof.Machine
end

section
/-! PROOF. The calibrator as round-to-nearest (R91): its value at and beyond the two ends, the inputs of one value between them, and
that the only tie is the input 0 (R95). -/

namespace Sys2Proof.Machine

/-! ### The clamp -/

theorem neg_one_le_one (inF : Nat) : -one inF ≤ one inF := by
  have hpos := one_pos inF
  omega

theorem one_succ (inF : Nat) : one (inF + 1) = 2 * one inF := by
  rw [one, one, pow_succ, mul_comm]

theorem clamp_mem {lo hi : Int} (x : Int) (h : lo ≤ hi) : lo ≤ clamp x lo hi ∧ clamp x lo hi ≤ hi := by
  rw [clamp_eq_max_min x lo hi h]
  omega

theorem clamp_of_mem {x lo hi : Int} (h0 : lo ≤ x) (h1 : x ≤ hi) : clamp x lo hi = x := by
  rw [clamp_eq_max_min x lo hi (h0.trans h1), min_eq_left h1, max_eq_right h0]

theorem clamp_clamp {lo hi : Int} (x : Int) (h : lo ≤ hi) : clamp (clamp x lo hi) lo hi = clamp x lo hi :=
  clamp_of_mem (clamp_mem x h).1 (clamp_mem x h).2

theorem clamp_of_le {x lo hi : Int} (h : lo ≤ hi) (hx : x ≤ lo) : clamp x lo hi = lo := by
  rw [clamp_eq_max_min x lo hi h, min_eq_left (hx.trans h), max_eq_left hx]

theorem clamp_of_ge {x lo hi : Int} (h : lo ≤ hi) (hx : hi ≤ x) : clamp x lo hi = hi := by
  rw [clamp_eq_max_min x lo hi h, min_eq_right hx, max_eq_right h]

theorem clamp_mono {x y lo hi : Int} (h : lo ≤ hi) (hxy : x ≤ y) : clamp x lo hi ≤ clamp y lo hi := by
  rw [clamp_eq_max_min x lo hi h, clamp_eq_max_min y lo hi h]
  exact max_le_max_left lo (min_le_min_right hi hxy)

/-! ### The calibrator at the ends and between them -/

/-- Saturation (R96): the calibrator sees an input through its clamp alone. -/
theorem calAt_clamp (inF : Nat) (n : Int) : calAt inF (clamp n (-one inF) (one inF)) = calAt inF n := by
  rw [calAt_eq, calAt_eq, clamp_clamp n (neg_one_le_one inF)]

theorem calAt_mono (inF : Nat) {n m : Int} (h : n ≤ m) : calAt inF n ≤ calAt inF m := by
  have hpos := one_pos inF
  have hclamp := clamp_mono (neg_one_le_one inF) h
  rw [calAt_eq, calAt_eq]
  exact Int.ediv_le_ediv (by omega) (by omega)

/-- Between the ends the result is a nearest integer to the exact image `(n + ONE) * 2047 / (2 * ONE)`, a tie going upward (R91). -/
theorem calAt_eq_iff {inF : Nat} {n : Int} (h0 : -one inF ≤ n) (h1 : n ≤ one inF) (p : Int) :
    calAt inF n = p ↔ (2 * p - 1) * one inF ≤ (n + one inF) * 2047 ∧ (n + one inF) * 2047 < (2 * p + 1) * one inF := by
  have hpos : 0 < 2 * one inF := by linarith [one_pos inF]
  have hle : p ≤ calAt inF n ↔ (2 * p - 1) * one inF ≤ (n + one inF) * 2047 := by
    rw [calAt_eq, clamp_of_mem h0 h1, Int.le_ediv_iff_mul_le hpos]
    constructor <;> intro h <;> linarith
  have hlt : calAt inF n < p + 1 ↔ (n + one inF) * 2047 < (2 * p + 1) * one inF := by
    rw [calAt_eq, clamp_of_mem h0 h1, Int.ediv_lt_iff_lt_mul hpos]
    constructor <;> intro h <;> linarith
  rw [← hle, ← hlt]
  omega

theorem calAt_of_le {inF : Nat} {n : Int} (h : n ≤ -one inF) : calAt inF n = 0 := by
  have hpos := one_pos inF
  have hn := neg_one_le_one inF
  rw [← calAt_clamp, clamp_of_le hn h, calAt_eq_iff le_rfl hn]
  omega

theorem calAt_of_ge {inF : Nat} {n : Int} (h : one inF ≤ n) : calAt inF n = 2047 := by
  have hpos := one_pos inF
  have hn := neg_one_le_one inF
  rw [← calAt_clamp, clamp_of_ge hn h, calAt_eq_iff hn le_rfl]
  omega

theorem calAt_zero (inF : Nat) : calAt inF 0 = 1024 := by
  have hpos := one_pos inF
  rw [calAt_eq_iff (by omega) (by omega)]
  omega

/-! ### Ties -/

/-- The factor 2047 is odd, so `2 * ONE` divides an input whose exact image is half-way, and between the ends it divides 0 alone
(R95). -/
theorem eq_zero_of_tie {inF : Nat} {n m : Int} (h0 : -one inF ≤ n) (h1 : n ≤ one inF)
    (h : (n + one inF) * 2047 = (2 * m + 1) * one inF) : n = 0 := by
  have hpos := one_pos inF
  have hone : one (inF + 1) = 2 * one inF := one_succ inF
  have hcoprime : IsCoprime (one (inF + 1)) 2047 := IsCoprime.pow_left ⟨-1023, 1, by norm_num⟩
  have hmul : n * 2047 = one (inF + 1) * (m - 1023) := by
    rw [hone]
    linarith
  have hdvd : one (inF + 1) ∣ n := hcoprime.dvd_of_dvd_mul_right ⟨m - 1023, hmul⟩
  refine Int.eq_zero_of_abs_lt_dvd hdvd ?_
  rw [abs_lt, hone]
  constructor <;> linarith

/-- With no tie, the bounds on a nearest integer are strict, so there is only one (R95). -/
theorem eq_calAt_of_nearest {inF : Nat} {n m : Int} (h0 : -one inF ≤ n) (h1 : n ≤ one inF) (hn : n ≠ 0)
    (hlo : (2 * m - 1) * one inF ≤ (n + one inF) * 2047) (hhi : (n + one inF) * 2047 ≤ (2 * m + 1) * one inF) :
    m = calAt inF n := by
  have hne : (n + one inF) * 2047 ≠ (2 * m + 1) * one inF := fun h => hn (eq_zero_of_tie h0 h1 h)
  exact ((calAt_eq_iff h0 h1 m).2 ⟨hlo, hhi.lt_of_ne hne⟩).symm

/-- The exact images of `n` and `-n` sum to 2047, so `2047 - cal(n)` is nearest to the image of `-n` (R98). -/
theorem calAt_neg {inF : Nat} {n : Int} (hn : n ≠ 0) : calAt inF (-n) = 2047 - calAt inF n := by
  rcases le_total n (-one inF) with hlo | hlo
  · rw [calAt_of_le hlo, calAt_of_ge (by omega), sub_zero]
  rcases le_total (one inF) n with hhi | hhi
  · rw [calAt_of_ge hhi, calAt_of_le (by omega), sub_self]
  obtain ⟨hge, hlt⟩ := (calAt_eq_iff hlo hhi _).1 rfl
  exact (eq_calAt_of_nearest (by omega) (by omega) (by omega) (by linarith) (by linarith)).symm

end Sys2Proof.Machine
end

section
/-! PROOF. The calibrator is the real-valued reference on every representable input (R90, R92), and what follows for both of them
(R93, R94). -/

namespace Sys2Proof.Machine

theorem cast_one_eq_two_pow {K : Type} [Field K] (inF : Nat) : (one inF : K) = 2 ^ inF := by
  simp [one]

section Reference

variable {K : Type} [Field K] [LinearOrder K] [IsStrictOrderedRing K]

theorem cast_one_pos (inF : Nat) : (0 : K) < one inF := Int.cast_pos.2 (one_pos inF)

/-- The clamp commutes with the division by `ONE` (R92). -/
theorem clamp_div_one (inF : Nat) (n : Int) :
    max (-1) (min ((n : K) / 2 ^ inF) 1) = ((clamp n (-one inF) (one inF) : Int) : K) / 2 ^ inF := by
  have hpos : (0 : K) < one inF := cast_one_pos inF
  rw [clamp_eq_max_min n _ _ (neg_one_le_one inF), Int.cast_max, Int.cast_min, Int.cast_neg, ← cast_one_eq_two_pow,
    ← max_div_div_right hpos.le, ← min_div_div_right hpos.le, neg_div, div_self hpos.ne']

/-- The exact image of an axis integer as a quotient of integers (R95). -/
theorem exactImage_eq_div (inF : Nat) (n : Int) :
    ((n : K) / 2 ^ inF + 1) / 2 * 2047 = (((n + one inF) * 2047 : Int) : K) / ((2 * one inF : Int) : K) := by
  have hpos : (0 : K) < one inF := cast_one_pos inF
  rw [← cast_one_eq_two_pow]
  push_cast
  field_simp

variable [FloorRing K]

/-- Rounding a fraction with an even denominator is the integer division that adds one half first (R92). -/
theorem rhu_div_two_mul (a b : Int) (hb : 0 < b) : rhu ((a : K) / ((2 * b : Int) : K)) = (a + b) / (2 * b) := by
  have hb' : (0 : K) < b := Int.cast_pos.2 hb
  have hsum : (a : K) / ((2 * b : Int) : K) + 1 / 2 = ((a + b : Int) : K) / ((2 * b : Int) : K) := by
    push_cast
    field_simp
  rw [rhu, hsum, Int.floor_div_cast_of_nonneg (by omega), Int.floor_intCast]

/-- Agreement (R92), over any ordered field with a floor. -/
theorem calReal_div_two_pow (inF : Nat) (n : Int) : calReal ((n : K) / 2 ^ inF) = calAt inF n := by
  have hPMAX : ((Config.PMAX : Nat) : K) = 2047 := by norm_num
  rw [calReal, clamp_div_one, hPMAX, exactImage_eq_div, rhu_div_two_mul _ _ (one_pos inF), calAt_eq]

theorem calReal_of_scaled {inF : Nat} {n : Int} {v : K} (h : (n : K) / 2 ^ inF = v) : calReal v = calAt inF n := by
  rw [← h, calReal_div_two_pow]

theorem calReal_nonneg (v : K) : 0 ≤ calReal v := by
  have hlo : -1 ≤ max (-1) (min v 1) := le_max_left _ _
  refine Int.floor_nonneg.2 ?_
  push_cast
  linarith

theorem calReal_le (v : K) : calReal v ≤ 2047 := by
  have hhi : max (-1) (min v 1) ≤ 1 := max_le (by norm_num) (min_le_right _ _)
  refine Int.lt_add_one_iff.1 (Int.floor_lt.2 ?_)
  push_cast
  linarith

theorem calReal_clamp (v : K) : calReal (max (-1) (min v 1)) = calReal v := by
  have hhi : max (-1) (min v 1) ≤ 1 := max_le (by norm_num) (min_le_right _ _)
  rw [calReal, calReal, min_eq_left hhi, max_eq_right (le_max_left _ _)]

end Reference

/-- Settles O10: the clamp and the rounding both commute with the scale of the axis value. -/
theorem calAgreesWithTheRealReference : Obligations.CalAgreesWithTheRealReference := fun inF n =>
  ⟨(calReal_div_two_pow inF n).symm, (calReal_div_two_pow inF n).symm⟩

theorem calAt_mem (inF : Nat) (n : Int) : 0 ≤ calAt inF n ∧ calAt inF n ≤ 2047 := by
  rw [← calReal_div_two_pow (K := ℚ)]
  exact ⟨calReal_nonneg _, calReal_le _⟩

/-- Settles O11: the reference is in range because its clamp is, and the calibrator because it agrees with the reference. -/
theorem calStaysInRange : Obligations.CalStaysInRange := by
  refine ⟨fun v => ⟨calReal_nonneg v, calReal_le v⟩, fun inF n => ?_⟩
  obtain ⟨h0, h1⟩ := calAt_mem inF n
  exact ⟨h0, h1, toInt_toProtocolValue_toNat _ h0 (by omega), Int.emod_eq_of_lt h0 (by omega)⟩

/-- Half of full scale: the exact image is 1535.25, so 1535 and not 1536 (R94, C1). -/
theorem calAt_half (inF : Nat) : calAt (inF + 1) (one inF) = 1535 := by
  have hpos := one_pos inF
  have hone := one_succ inF
  rw [calAt_eq_iff (by omega) (by omega)]
  omega

/-- Settles O12: the reference's fixed points are the calibrator's at `IN_F` = 0 and 1. -/
theorem calFixedPoints : Obligations.CalFixedPoints := by
  refine ⟨fun inF => ⟨calAt_of_le le_rfl, calAt_zero inF, calAt_of_ge le_rfl, calAt_half inF⟩, ?_, ?_, ?_, ?_⟩
  · rw [calReal_of_scaled (inF := 0) (n := -1) (by norm_num)]
    exact calAt_of_le le_rfl
  · rw [calReal_of_scaled (inF := 0) (n := 0) (by norm_num)]
    exact calAt_zero 0
  · rw [calReal_of_scaled (inF := 0) (n := 1) (by norm_num)]
    exact calAt_of_ge le_rfl
  · rw [calReal_of_scaled (inF := 1) (n := 1) (by norm_num)]
    exact calAt_half 0

end Sys2Proof.Machine
end

section
/-! PROOF. The calibrator's arithmetic laws (R95 to R100) and the operation CAL (R102). -/

namespace Sys2Proof.Machine

/-- Settles O9: CAL latches the calibrator's result, which fits `PV`. -/
theorem calLatchesTheCalibratedOperand : Obligations.CalLatchesTheCalibratedOperand := by
  refine ⟨fun calIn s => ⟨_, exec_cal calIn s, ?_, State.latchPv_pvValid s _, latchPv_frame s _⟩, decode_of_op_cal⟩
  rw [State.latchPv_pv, toNat_toProtocolValue_cal, cal_eq, sext_eq_toInt]
  norm_num

/-- The exact image lies half-way between `m` and `m + 1` (R95), in integers. -/
theorem exactImage_eq_add_half_iff (inF : Nat) (n m : Int) :
    ((n : ℚ) / 2 ^ inF + 1) / 2 * 2047 = m + 1 / 2 ↔ (n + one inF) * 2047 = (2 * m + 1) * one inF := by
  have hpos : (0 : ℚ) < one inF := cast_one_pos inF
  rw [exactImage_eq_div, ← Int.cast_inj (α := ℚ)]
  push_cast
  rw [div_eq_iff (by positivity)]
  constructor <;> intro h <;> linarith

/-- `m` is a nearest integer to the exact image (R95), in integers. -/
theorem abs_exactImage_sub_le_half_iff (inF : Nat) (n m : Int) :
    |((n : ℚ) / 2 ^ inF + 1) / 2 * 2047 - m| ≤ 1 / 2 ↔
      (2 * m - 1) * one inF ≤ (n + one inF) * 2047 ∧ (n + one inF) * 2047 ≤ (2 * m + 1) * one inF := by
  have hpos : (0 : ℚ) < 2 * one inF := by linarith [cast_one_pos (K := ℚ) inF]
  rw [exactImage_eq_div, abs_sub_le_iff, sub_le_iff_le_add, sub_le_comm, ← Int.cast_le (R := ℚ), ← Int.cast_le (R := ℚ)]
  push_cast
  rw [div_le_iff₀ hpos, le_div_iff₀ hpos, and_comm]
  exact and_congr ⟨fun h => by linarith, fun h => by linarith⟩ ⟨fun h => by linarith, fun h => by linarith⟩

/-- Settles O13: in integers a tie forces the input 0, and without a tie the nearest integer is unique. -/
theorem calOnlyTieIsZero : Obligations.CalOnlyTieIsZero := by
  intro inF n h0 h1
  refine ⟨⟨fun ⟨m, hm⟩ => eq_zero_of_tie h0 h1 ((exactImage_eq_add_half_iff inF n m).1 hm), ?_⟩, fun hn m hm => ?_, ?_⟩
  · rintro rfl
    exact ⟨1023, by norm_num⟩
  · obtain ⟨hlo, hhi⟩ := (abs_exactImage_sub_le_half_iff inF n m).1 hm
    exact eq_calAt_of_nearest h0 h1 hn hlo hhi
  · rintro rfl
    exact ⟨by norm_num, calAt_zero inF⟩

/-- Settles O14: the clamp is idempotent, and the end values of the block begin 8 inputs inside the range. -/
theorem calClampsTheInput : Obligations.CalClampsTheInput := by
  refine ⟨fun inF n => ⟨(calAt_clamp inF n).symm, fun h => calAt_of_le h.le, fun h => calAt_of_ge h.le⟩,
    fun v => (calReal_clamp v).symm, fun n => ?_⟩
  rw [cal_eq]
  omega

/-- The value `p` is reached at the integer just below its own place on the scale (R97). -/
theorem cal_scaled (p : Int) (h0 : 0 ≤ p) (h1 : p ≤ 2047) : cal (p * 32768 / 2047 - 16384) = p := by
  rw [cal_eq]
  omega

/-- Settles O15: every step of the calibrator is non-decreasing, and the block's slope 2047/32768 is below 1. -/
theorem calIsMonotoneAndOnto : Obligations.CalIsMonotoneAndOnto := by
  refine ⟨fun inF n m h => calAt_mono inF h, fun n => ?_, fun p h0 h1 => ⟨p * 32768 / 2047 - 16384, ?_, ?_, cal_scaled p h0 h1⟩⟩
  · rw [cal_eq, cal_eq]
    omega
  · omega
  · omega

/-- Settles O16: reflection holds off the tie, and the tie 1023.5 counts twice as 1024. -/
theorem calReflects : Obligations.CalReflects := by
  refine ⟨fun inF n hn => ?_, fun inF => ?_, by decide, by decide, by decide⟩
  · rw [calAt_neg hn]
    exact add_sub_cancel _ _
  · rw [neg_zero, calAt_zero]
    rfl

/-- Settles O17: the two bounds of a nearest integer, each solved for the input. -/
theorem calPreimagesAreIntervals : Obligations.CalPreimagesAreIntervals := by
  intro p n hp0 hp1
  have hone : one 14 = 16384 := rfl
  refine ⟨fun h0 h1 => ?_, fun h => ?_, fun h => ?_⟩
  · have hlo : ⌈((2 * p - 1) * 16384 : ℚ) / 2047⌉ ≤ n + 16384 ↔ (2 * p - 1) * 16384 ≤ (n + 16384) * 2047 := by
      rw [Int.ceil_le, div_le_iff₀ (by norm_num)]
      exact_mod_cast Iff.rfl
    have hhi : n + 16384 < ⌈((2 * p + 1) * 16384 : ℚ) / 2047⌉ ↔ (n + 16384) * 2047 < (2 * p + 1) * 16384 := by
      rw [Int.lt_ceil, lt_div_iff₀ (by norm_num)]
      exact_mod_cast Iff.rfl
    rw [cal, calAt_eq_iff h0 h1, hone, ← hlo, ← hhi]
    omega
  · rw [cal, calAt_of_le (show n ≤ -one 14 by omega), eq_comm]
  · rw [cal, calAt_of_ge (show one 14 ≤ n by omega), eq_comm]

theorem calU_mem (inF : Nat) (n : Int) : 0 ≤ calU inF n ∧ calU inF n ≤ 2 * one inF := by
  have hc := clamp_mem n (neg_one_le_one inF)
  unfold calU
  omega

theorem calT_eq (inF : Nat) (n : Int) : calT inF n = calU inF n * 2047 + one inF := rfl

theorem calT_mem (inF : Nat) (n : Int) : one inF ≤ calT inF n ∧ calT inF n ≤ 4095 * one inF := by
  have hu := calU_mem inF n
  rw [calT_eq]
  omega

/-- Settles O18: each intermediate is bounded by a multiple of `ONE` that its width holds. -/
theorem calIntermediatesFit : Obligations.CalIntermediatesFit := by
  refine ⟨fun inF n => ?_, fun n => (calT_mem 14 n).2, by decide⟩
  have hpos := one_pos inF
  obtain ⟨hc0, hc1⟩ := clamp_mem n (neg_one_le_one inF)
  obtain ⟨hu0, hu1⟩ := calU_mem inF n
  obtain ⟨ht0, ht1⟩ := calT_mem inF n
  have hone : (2 : Int) ^ inF = one inF := rfl
  have hwidth : (2 : Int) ^ (inF + 1) = 2 * one inF := one_succ inF
  have hwidthT : (2 : Int) ^ (inF + 12) = 4096 * one inF := by
    rw [pow_add, hone, mul_comm]
    norm_num
  rw [hwidth, hwidthT, hone]
  omega

end Sys2Proof.Machine
end

section
/-! PROOF. The encoder (`41_encode.md`): masking (R110), where each channel bit stands in the frame (R43, R120), the packing as a bijection
(R117, R119), and the lanes' independence (R112). -/

namespace Sys2Proof.Machine

/-! ### Masking (R110) -/

/-- The mask keeps the low 11 bits as they are. -/
theorem getLsbD_mask11 (x : Nat) {j : Nat} (hj : j < 11) : (mask11 x).getLsbD j = x.testBit j := by
  rw [BitVec.getLsbD, toNat_mask11, Nat.testBit_mod_two_pow x 11 j, decide_eq_true hj, Bool.true_and]

/-- Masking twice is masking once. -/
@[simp] theorem mask11_mod (x : Nat) : mask11 (x % 2048) = mask11 x := by
  rw [mask11, Nat.mod_mod, mask11]

/-- The encoder reads nothing of a channel input but its residue. -/
theorem maskChannels_mod (x : Vector Nat 16) : maskChannels (Vector.ofFn fun k : Fin 16 => x[k] % 2048) = maskChannels x := by
  ext1 k hk
  rw [getElem_maskChannels, getElem_maskChannels, Vector.getElem_ofFn, mask11_mod, Fin.getElem_fin]

/-- Settles O19: the frame is made of the masked channels, and the mask is the residue modulo 2048, so the low 11 bits. -/
theorem encoderMasksByTruncation : Obligations.EncoderMasksByTruncation := by
  refine ⟨fun x => ⟨toNat_mask11 x, fun hx => ?_, fun j hj => getLsbD_mask11 x hj⟩, fun x flags => ?_, rfl, rfl, rfl, rfl⟩
  · rw [toNat_mask11, Nat.mod_eq_of_lt (Nat.lt_succ_of_le hx)]
  · rw [encodeFrame, encodeFrame, maskChannels_mod]

/-! ### The place of each channel bit (R43, R120) -/

/-- Stream bit `11k + j` stands in the frame behind the start byte, eight stream bits to a byte. -/
theorem getLsbD_encodeFrame (x : Vector Nat 16) (flags : Byte) (k : Fin 16) (j : Fin 11) :
    ((encodeFrame x flags)[1 + (11 * k.val + j.val) / 8]'(by omega)).getLsbD ((11 * k.val + j.val) % 8) =
      x[k].testBit j.val := by
  have hbyte : (11 * k.val + j.val) / 8 < 22 := by omega
  have hbit : (11 * k.val + j.val) % 8 < 8 := Nat.mod_lt _ (by decide)
  have hstream : 8 * ((11 * k.val + j.val) / 8) + (11 * k.val + j.val) % 8 = 11 * k.val + j.val := Nat.div_add_mod _ 8
  simp only [Nat.add_comm 1]
  rw [BitVec.getLsbD, testBit_encodeFrame_byte x flags hbyte hbit j.isLt hstream, ← toNat_mask11]
  exact getLsbD_mask11 x[k] j.isLt

/-- Settles O20: ENC latches the frame of its operands, whose bits stand where the stream has them. -/
theorem encPlacesEveryChannelBit : Obligations.EncPlacesEveryChannelBit := by
  refine ⟨fun ch flags s => ⟨_, exec_enc ch flags s, ?_⟩, decode_of_op_enc⟩
  rw [State.latchFr_fr]
  refine ⟨encodeFrame_start _ _, encodeFrame_flags _ _, encodeFrame_end _ _, fun k j => ?_, State.latchFr_frValid _ _,
    latchFr_frame _ _⟩
  rw [getLsbD_encodeFrame, Fin.getElem_fin, getElem_channelOperands]
  rfl

/-! ### The packing is a bijection (R117, R119) -/

/-- The stream's channels laid end to end are the payload they were cut from: 176 bits either way. -/
theorem bitstream_unpack (payload : Payload) : bitstream (unpack payload) = concatLanes payload :=
  concatLanes_sliceLanes 11 16 (concatLanes payload) (by decide) (concatLanes_lt payload)

@[simp] theorem pack_unpack (payload : Payload) : pack (unpack payload) = payload := by
  rw [pack, bitstream_unpack, sliceLanes_concatLanes]

/-- A frame has the ChannelSet and the flags that made it. -/
theorem encodeFrame_channelInts_inj {c d : ChannelSet} {f g : Byte}
    (h : encodeFrame (channelInts c) f = encodeFrame (channelInts d) g) : c = d ∧ f = g := by
  constructor
  · calc c = unpack (payloadOf (encodeFrame (channelInts c) f)) := by
          rw [unpack_payloadOf_encodeFrame, maskChannels_channelInts]
      _ = unpack (payloadOf (encodeFrame (channelInts d) g)) := by rw [h]
      _ = d := by rw [unpack_payloadOf_encodeFrame, maskChannels_channelInts]
  · calc f = (encodeFrame (channelInts c) f)[23] := (encodeFrame_flags _ _).symm
      _ = (encodeFrame (channelInts d) g)[23] := by rw [h]
      _ = g := encodeFrame_flags _ _

/-- Settles O22: `unpack` is the inverse of `pack` on both sides, and the payload stands whole in the frame. -/
theorem frameRoundTrip : Obligations.FrameRoundTrip := by
  refine ⟨fun x flags k => ?_, fun payload => ⟨pack_unpack payload, ?_⟩, fun c d f g => encodeFrame_channelInts_inj⟩
  · rw [unpack_payloadOf_encodeFrame, Fin.getElem_fin, getElem_maskChannels, toNat_mask11, Fin.getElem_fin]
  · rintro chans rfl
    exact (unpack_pack chans).symm

/-! ### The lanes are independent (R112) -/

/-- A payload bit reads the one channel whose stream bits it is among. -/
theorem getLsbD_encodeFrame_congr {x y : Vector Nat 16} (flags : Byte) {i m : Nat} (hi : i < 22) (hm : m < 8)
    (h : ∀ k : Fin 16, k.val = (8 * i + m) / 11 → x[k] = y[k]) :
    (encodeFrame x flags)[i + 1].getLsbD m = (encodeFrame y flags)[i + 1].getLsbD m := by
  obtain ⟨k, hk⟩ : ∃ k : Fin 16, k.val = (8 * i + m) / 11 := ⟨⟨(8 * i + m) / 11, by omega⟩, rfl⟩
  have hj : (8 * i + m) % 11 < 11 := Nat.mod_lt _ (by decide)
  have hstream : 8 * i + m = 11 * k.val + (8 * i + m) % 11 := by rw [hk, Nat.div_add_mod]
  rw [BitVec.getLsbD, BitVec.getLsbD, testBit_encodeFrame_byte x flags hi hm hj hstream,
    testBit_encodeFrame_byte y flags hi hm hj hstream, h k hk]

/-- The four kinds of a frame's bytes: start, payload, flags and end (R42, R47). -/
theorem frame_index_cases {b : Nat} (hb : b < 25) : b = 0 ∨ (∃ i < 22, b = i + 1) ∨ b = 23 ∨ b = 24 := by
  rcases b with _ | i
  · exact .inl rfl
  · by_cases hi : i < 22
    · exact .inr (.inl ⟨i, hi, rfl⟩)
    · omega

/-- Settles O23: no bit outside channel `k`'s eleven reads it, so no byte all of whose bits are outside, and the start, flags and end
bytes read no channel. -/
theorem lanesAreIndependent : Obligations.LanesAreIndependent := by
  intro x y flags k hxy
  have bits_eq (i m : Nat) (hi : i < 22) (hm : m < 8) (hout : (8 * i + m) / 11 ≠ k.val) :
      (encodeFrame x flags)[i + 1].getLsbD m = (encodeFrame y flags)[i + 1].getLsbD m :=
    getLsbD_encodeFrame_congr flags hi hm fun j hj => hxy j fun hjk => hout (by rw [← hj, hjk])
  refine ⟨fun i m => bits_eq i.val m.val i.isLt m.isLt, ?_⟩
  rintro ⟨b, hb⟩ hout
  rw [Fin.getElem_fin, Fin.getElem_fin]
  dsimp only at hout ⊢
  obtain rfl | ⟨i, hi, rfl⟩ | rfl | rfl := frame_index_cases hb
  · rw [encodeFrame_start, encodeFrame_start]
  · exact BitVec.eq_of_getLsbD_eq fun m hm => bits_eq i m hi hm (by omega)
  · rw [encodeFrame_flags, encodeFrame_flags]
  · rw [encodeFrame_end, encodeFrame_end]

end Sys2Proof.Machine
end

section
/-! PROOF. The axis store (`42_store_snapshot_tick.md`): UPD (R131), UPDs in sequence (R132), and the operations that change nothing
(R130, R140). -/

namespace Sys2Proof.Machine

/-- Settles O25: a UPD is the masked write, and one that the ports present is the masked write of the port's values. -/
theorem updWritesTheSelectedAxes : Obligations.UpdWritesTheSelectedAxes := by
  refine ⟨fun mask vals s => ⟨_, exec_upd mask vals s, fun i => ?_, writeAx_frame s mask vals⟩, fun p s hop => ?_⟩
  · exact getElem_writeAx s mask vals i.val i.isLt
  · have he : exec (decode p) s = .next (s.writeAx p.updMask p.updVal) := by
      rw [decode_of_op_upd p hop, exec_upd, writeAx_updCanonicalVals]
    exact ⟨_, he, fun i => getElem_writeAx s p.updMask p.updVal i.val i.isLt, writeAx_frame s _ _⟩

/-- Masks with no bit in common select no axis twice. -/
theorem not_getLsbD_of_disjoint {m n : AxisMask} (h : m &&& n = 0#4) (i : Nat) : ¬ (m.getLsbD i = true ∧ n.getLsbD i = true) := by
  rw [← Bool.and_eq_true, ← BitVec.getLsbD_and, h]
  simp

/-- An axis is written by one of two disjoint writes at most, so their order does not show. -/
theorem writeAx_comm_of_disjoint {m n : AxisMask} (h : m &&& n = 0#4) (v w : Vector AxisWord 4) (s : State) :
    (s.writeAx m v).writeAx n w = (s.writeAx n w).writeAx m v := by
  have hax : ((s.writeAx m v).writeAx n w).ax = ((s.writeAx n w).writeAx m v).ax := by
    ext1 i hi
    have hdisj := not_getLsbD_of_disjoint h i
    simp only [getElem_writeAx _ _ _ i hi]
    split_ifs with hn hm
    · exact absurd ⟨hm, hn⟩ hdisj
    · rfl
    · rfl
    · rfl
  rw [writeAx_frame (s.writeAx m v), hax]
  rfl

/-- The later of two writes to the roll axis shows. -/
theorem roll_writeAx_writeAx (s : State) (v w : Vector AxisWord 4) : ((s.writeAx 0b0001#4 v).writeAx 0b0001#4 w).ax[0] = w[0] := by
  rw [getElem_writeAx]
  rfl

/-- Settles O26: disjoint masked writes commute; of two writes to the roll axis, 0 and 1, the later one shows. -/
theorem disjointUpdsCommute : Obligations.DisjointUpdsCommute := by
  refine ⟨fun m n v w s h => ?_, 0b0001#4, 0b0001#4, Vector.replicate 4 0#16, Vector.replicate 4 1#16, fun s => ?_⟩
  · refine ⟨_, _, _, exec_upd m v s, exec_upd n w _, exec_upd n w s, ?_⟩
    rw [exec_upd, writeAx_comm_of_disjoint h]
  · refine ⟨_, _, _, _, exec_upd _ _ s, exec_upd _ _ _, exec_upd _ _ s, exec_upd _ _ _, fun hr => ?_⟩
    have hroll := congrArg (fun t : State => t.ax[0]) hr
    simp only [roll_writeAx_writeAx] at hroll
    exact absurd hroll (by decide)

/-- Settles O38: every sample put in front of a run keeps what the run says of the axes. -/
theorem lastWriteWinsPerAxis : Obligations.LastWriteWinsPerAxis := drive_holdsLastWrites

/-- Settles O31: the three arms leave the state, and the decoder reads no operand port for their opcodes. -/
theorem idleAndReservedChangeNothing : Obligations.IdleAndReservedChangeNothing :=
  ⟨fun s => ⟨exec_nop s, exec_rsv6 s, exec_rsv7 s⟩,
    fun p => ⟨decode_of_op_nop p, decode_of_op_rsv6 p, decode_of_op_rsv7 p⟩⟩

end Sys2Proof.Machine
end

section
/-! PROOF. The snapshot and the tick (`42_store_snapshot_tick.md` R133 to R139). -/

namespace Sys2Proof.Machine

/-! ### What SNAP and TICK latch (R134, R137) -/

/-- The calibrated entries of a snapshot, with R91 written out. -/
theorem toNat_snapshot_readAx_eq (s : State) (k : Nat) (h : k < 4) :
    ((snapshot s.readAx)[k].toNat : Int) =
      ((max (-16384) (min s.ax[k].toInt 16384) + 16384) * 2047 + 16384) / 2 ^ 15 := by
  rw [toNat_snapshot_readAx s k h, cal_eq, sext_eq_toInt]
  norm_num

/-- Settles O27: SNAP latches the snapshot of the axes. -/
theorem snapLatchesTheChannelSet : Obligations.SnapLatchesTheChannelSet := by
  refine ⟨fun s => ⟨_, exec_snap s, ?_⟩, decode_of_op_snap⟩
  rw [State.latchCs_cs]
  exact ⟨toNat_snapshot_readAx_eq s, fun k hk => getElem_snapshot_neutral _ k.val hk k.isLt, State.latchCs_csValid _ _,
    latchCs_frame _ _⟩

/-- The place in the frame of each bit of an encoded ChannelSet (R43). -/
theorem getLsbD_encodeFrame_channelInts (chans : ChannelSet) (flags : Byte) (k : Fin 16) (j : Fin 11) :
    ((encodeFrame (channelInts chans) flags)[1 + (11 * k.val + j.val) / 8]'(by omega)).getLsbD ((11 * k.val + j.val) % 8) =
      chans[k].getLsbD j.val := by
  rw [getLsbD_encodeFrame, Fin.getElem_fin, getElem_channelInts]
  rfl

/-- Settles O28: TICK latches the snapshot of the axes and that snapshot's frame. -/
theorem tickLatchesSnapshotAndFrame : Obligations.TickLatchesSnapshotAndFrame := by
  refine ⟨fun s => ⟨_, exec_tick s, ?_⟩, decode_of_op_tick⟩
  rw [State.latchFr_cs, State.latchCs_cs, State.latchFr_fr, tickFrame_eq]
  exact ⟨toNat_snapshot_readAx_eq s, fun k hk => getElem_snapshot_neutral _ k.val hk k.isLt, encodeFrame_start _ _,
    encodeFrame_flags _ _, encodeFrame_end _ _, getLsbD_encodeFrame_channelInts _ _, State.latchFr_csValid _ _,
    State.latchFr_frValid _ _, latchCs_latchFr_frame s _ _⟩

/-! ### TICK as SNAP and ENC (R138) -/

/-- Zero-extension to the port keeps the integers of a ChannelSet. -/
theorem channelOperands_setWidth (chans : ChannelSet) :
    channelOperands (Vector.ofFn fun k : Fin 16 => chans[k].setWidth 16) = channelInts chans := by
  ext1 k hk
  rw [getElem_channelOperands, getElem_channelInts, Vector.getElem_ofFn, Fin.getElem_fin,
    BitVec.toNat_setWidth_of_le (by decide)]

/-- Settles O29: the ENC's operands are the integers that TICK encodes. -/
theorem tickIsSnapThenEnc : Obligations.TickIsSnapThenEnc := by
  intro s
  refine ⟨_, _, exec_snap s, exec_enc _ _ _, ?_⟩
  rw [exec_tick, channelOperands_setWidth, State.latchCs_cs, tickFrame_eq]

/-! ### The constant end of a TICK's frame (R137) -/

/-- Frame bytes 7 to 24 read no channel before channel 4, whose first bit is stream bit 44: byte 7 begins at stream bit 48. -/
theorem encodeFrame_drop_congr {x y : Vector Nat 16} (flags : Byte) (h : ∀ k : Fin 16, 4 ≤ k.val → x[k] = y[k]) :
    (encodeFrame x flags).toList.drop 7 = (encodeFrame y flags).toList.drop 7 := by
  refine List.ext_getElem (by simp) fun b hb _ => ?_
  rw [List.length_drop, Vector.length_toList] at hb
  have hlt : 7 + b < 25 := by omega
  rw [List.getElem_drop, List.getElem_drop, Vector.getElem_toList, Vector.getElem_toList]
  obtain h0 | ⟨i, hi, hbi⟩ | hbi | hbi := frame_index_cases hlt
  · omega
  · simp only [hbi]
    exact BitVec.eq_of_getLsbD_eq fun m hm => getLsbD_encodeFrame_congr flags hi hm fun k hk => h k (by omega)
  · simp only [hbi]
    rw [encodeFrame_flags, encodeFrame_flags]
  · simp only [hbi]
    rw [encodeFrame_end, encodeFrame_end]

/-- Beyond the axes a snapshot has the integers of the neutral channels. -/
theorem channelInts_snapshot_neutral (a : Vector Int 4) (k : Fin 16) (h : 4 ≤ k.val) :
    (channelInts (snapshot a))[k] = (channelOperands (Vector.replicate 16 1024#16))[k] := by
  rw [Fin.getElem_fin, Fin.getElem_fin, getElem_channelInts, getElem_snapshot_neutral a k.val h k.isLt,
    getElem_channelOperands, Vector.getElem_replicate]
  rfl

/-- Settles O30: bytes 7 to 24 read channels 4 to 15 alone, so they are those of the neutral frame. -/
theorem tickFrameTailIsConstant : Obligations.TickFrameTailIsConstant := by
  refine fun s => ⟨_, exec_tick s, ?_⟩
  rw [State.latchFr_fr, tickFrame_eq, encodeFrame_drop_congr _ (channelInts_snapshot_neutral s.readAx), encodeFrame, pack_neutral,
    toList_assemble]
  rfl

/-! ### From the throttle to the frame (R139, C1) -/

/-- An axis read as 0.0 stands in the snapshot as the neutral value. -/
theorem getElem_snapshot_of_zero (s : State) (k : Nat) (h : k < 4) (h0 : s.ax[k] = 0#16) :
    (snapshot s.readAx)[k] = 1024#11 := by
  rw [getElem_snapshot_axis _ k h, getElem_readAx, h0]
  decide

/-- An axis read as 0.5 stands in the snapshot as 1535, the floor of 1535.25 (C1). -/
theorem getElem_snapshot_of_half (s : State) (k : Nat) (h : k < 4) (hhalf : s.ax[k] = 8192#16) :
    (snapshot s.readAx)[k] = 1535#11 := by
  rw [getElem_snapshot_axis _ k h, getElem_readAx, hhalf]
  decide

/-- Settles O32: the frame unpacks to the snapshot of the axes after the UPD, which sets the throttle and leaves the others. -/
theorem throttleHalfReachesTheFrame : Obligations.ThrottleHalfReachesTheFrame := by
  refine fun s => ⟨_, _, exec_upd _ _ s, exec_tick _, ?_⟩
  generalize ht : s.writeAx 0b1000#4 #v[0#16, 0#16, 0#16, 8192#16] = t
  have hthrottle : t.ax[3] = 8192#16 := by
    rw [← ht, getElem_writeAx]
    rfl
  have hothers (k : Nat) (h : k < 3) : t.ax[k] = s.ax[k] := by
    have hmask : (0b1000#4).getLsbD k = false := by
      interval_cases k <;> rfl
    rw [← ht, getElem_writeAx, hmask]
    rfl
  rw [State.latchFr_fr, unpack_payloadOf_tickFrame]
  refine ⟨getElem_snapshot_of_half t 3 (by decide) hthrottle, fun k hk => getElem_snapshot_neutral _ k.val hk k.isLt,
    fun k h => ?_, fun k h h0 => ?_⟩
  · rw [toNat_snapshot_readAx t k (by omega), hothers k h]
  · exact getElem_snapshot_of_zero t k (by omega) ((hothers k h).trans h0)

end Sys2Proof.Machine
end

section
/-! PROOF. Every operation and every step goes on to a next state (`60_exceptions.md` R150, `00_scope.md` R13). -/

namespace Sys2Proof.Machine

/-- In each of the cases of an operation the outcome is a next state: unchanged, or written by a masked write or a latch. -/
theorem exec_next (i : Instr) (s : State) : ∃ t, exec i s = .next t := by
  rcases exec_cases i s with ⟨-, h⟩ | ⟨_, _, -, h⟩ | ⟨_, -, h⟩ | ⟨-, h⟩ | ⟨_, _, -, h⟩ | ⟨-, h⟩ <;> exact ⟨_, h⟩

/-- A step accepts the sample presented, and accepting goes on with a reset as with an operation. -/
theorem step_next (s : State) : ∃ t, step s = .next t := accept_next s.presented s.advance

/-- Settles O33: no case of an operation raises a fault or refuses, and a step is the reset action or an operation. -/
theorem everyOperationCompletes : Obligations.EveryOperationCompletes := ⟨exec_next, step_next⟩

end Sys2Proof.Machine
end

section
/-! PROOF. What a host can observe of the result registers (`70_reset_and_hazards.md` R177, `00_scope.md` R11), what a reset leaves
of the past (R171), and the frame of a host that keeps its duty while it sends (R176). -/

namespace Sys2Proof.Machine

/-! ### Observations of valid results, and `MemRead` as a part of the whole observation -/

theorem observePv_of_valid (s : State) (h : s.pvValid = true) : s.observePv = .ok s.pv := by
  rcases observePv_cases s with ⟨-, ho⟩ | ⟨hv, -⟩
  · exact ho
  · simp [h] at hv

theorem observeCs_of_valid (s : State) (h : s.csValid = true) : s.observeCs = .ok s.cs := by
  rcases observeCs_cases s with ⟨-, ho⟩ | ⟨hv, -⟩
  · exact ho
  · simp [h] at hv

theorem observeFrame_of_valid (s : State) (h : s.frValid = true) : s.observeFrame = .ok s.fr := by
  rcases observeFrame_cases s with ⟨-, ho⟩ | ⟨hv, -⟩
  · exact ho
  · simp [h] at hv

/-- Inside its range a `MemRead` is a part of what `frame_out` answers, refused where that is. -/
theorem memRead_eq_observeFrame (s : State) (a n : Nat) :
    s.memRead a n =
      if 25 < a + n then .error (.frameIndexAbsent a n)
      else s.observeFrame.map fun frame => (frame.toList.drop a).take n := by
  rcases memRead_cases s a n with ⟨hgt, hm⟩ | ⟨hle, hv, hm⟩ | ⟨hle, hv, hm⟩
  · rw [hm, if_pos hgt]
  · rw [hm, if_neg (Nat.not_lt.mpr hle), observeFrame_of_not_valid s hv, Except.map]
  · rw [hm, if_neg (Nat.not_lt.mpr hle), observeFrame_of_valid s hv, Except.map]

/-- Where `frame_out` answers alike, so does every `MemRead`. -/
theorem memRead_congr {s t : State} (h : t.observeFrame = s.observeFrame) (a n : Nat) : t.memRead a n = s.memRead a n := by
  rw [memRead_eq_observeFrame, memRead_eq_observeFrame, h]

theorem memRead_of_beyond (s : State) (a n : Nat) (h : 25 < a + n) : s.memRead a n = .error (.frameIndexAbsent a n) := by
  rw [memRead_eq_observeFrame, if_pos h]

theorem memRead_of_valid (s : State) (a n : Nat) (hr : a + n ≤ 25) (h : s.frValid = true) :
    s.memRead a n = .ok ((s.fr.toList.drop a).take n) := by
  rw [memRead_eq_observeFrame, if_neg (Nat.not_lt.mpr hr), observeFrame_of_valid s h, Except.map]

/-- The bytes that a `MemRead` inside the frame takes: `n` of them, from byte `a` on. -/
theorem length_drop_take_frame (frame : Frame) {a n : Nat} (h : a + n ≤ 25) :
    ((frame.toList.drop a).take n).length = n := by
  rw [List.length_take, List.length_drop, Vector.length_toList]
  omega

theorem getElem?_drop_take_frame (frame : Frame) (a : Nat) {n i : Nat} (h : i < n) :
    ((frame.toList.drop a).take n)[i]? = frame[a + i]? := by
  rw [List.getElem?_take_of_lt h, List.getElem?_drop, Vector.getElem?_toList]

/-- Settles O45: an observation is decided by the valid bit, a `MemRead` by its range first. -/
theorem observationNeedsAValidResult : Obligations.ObservationNeedsAValidResult := by
  refine fun s => ⟨observePv_of_valid s, observePv_of_not_valid s, observeCs_of_valid s, observeCs_of_not_valid s,
    observeFrame_of_valid s, observeFrame_of_not_valid s, fun a n hr => ⟨memRead_of_not_valid s a n hr, fun hv => ?_⟩,
    memRead_of_beyond s⟩
  exact ⟨_, memRead_of_valid s a n hr hv, length_drop_take_frame s.fr hr, fun _ => getElem?_drop_take_frame s.fr a⟩

/-! ### Reset (R171) -/

theorem accept_of_reset (p : Ports) (s : State) (h : p.rst = true) : accept p s = .next s.applyReset := by
  simp [accept, h]

/-- A listed sample with reset: the step is the reset action, which reads no other port. -/
theorem step_of_reset (s : State) (p : Ports) (rest : List Ports) (hi : s.inputs = p :: rest) (hr : p.rst = true) :
    step s = .next ({ s with inputs := rest, now := s.now + 1 } : State).applyReset := by
  rw [step_of_inputs s p rest hi, accept_of_reset p _ hr]

/-- Settles O7: the state after a reset names no port, and any two states after a reset are alike. -/
theorem resetWinsOverTheCommand : Obligations.ResetWinsOverTheCommand := by
  intro s p rest hi hr
  refine ⟨_, step_of_reset s p rest hi hr, rfl, rfl, rfl, rfl, rfl, fun q hq => ?_, fun q rest' hq hrest => ?_⟩
  · exact step_of_reset { s with inputs := q :: rest } q rest rfl hq
  · exact ⟨_, step_of_reset _ q rest' hrest hq, alike_applyReset _ _⟩

/-! ### Alike states answer alike -/

/-- What is answered under a valid bit and refused without it depends on the bit and on a valid content alone. -/
theorem answer_congr {α : Type} {valid valid' : Bool} {content content' : α} (r : Refusal) (hvalid : valid = valid')
    (hcontent : valid = true → content = content') :
    (if valid then Except.ok content else .error r) = if valid' then .ok content' else .error r := by
  subst hvalid
  cases valid with
  | false => rfl
  | true => rw [hcontent rfl]

theorem observe_of_alike {s s' : State} (h : s.Alike s') :
    s.observePv = s'.observePv ∧ s.observeCs = s'.observeCs ∧ s.observeFrame = s'.observeFrame := by
  obtain ⟨-, hpv, hcv, hfv, hp, hcs, hfr⟩ := h
  exact ⟨answer_congr _ hpv hp, answer_congr _ hcv hcs, answer_congr _ hfv hfr⟩

/-- The same samples keep alike states alike. -/
theorem drive_alike (ps : List Ports) {s s' : State} (h : s.Alike s') :
    ∃ t t', drive ps s = .next t ∧ drive ps s' = .next t' ∧ t.Alike t' := by
  induction ps generalizing s s' with
  | nil => exact ⟨s, s', drive_nil s, drive_nil s', h⟩
  | cons p ps ih =>
    obtain ⟨u, hu⟩ := accept_next p { s with now := s.now + 1 }
    have hcounted : State.Alike { s with now := s.now + 1 } { s' with now := s'.now + 1 } := h
    obtain ⟨u', hu', halike⟩ := accept_alike p hcounted hu
    rw [drive_cons p ps s u hu, drive_cons p ps s' u' hu']
    exact ih halike

/-- Settles O44: the reset makes any two states alike, and the samples after it keep them so. -/
theorem resetForgetsEverythingObservable : Obligations.ResetForgetsEverythingObservable := by
  intro p ps s s' hr
  rw [drive_cons p ps s _ (accept_of_reset p _ hr), drive_cons p ps s' _ (accept_of_reset p _ hr)]
  obtain ⟨t, t', ht, ht', halike⟩ := drive_alike ps (alike_applyReset _ _)
  obtain ⟨hpv, hcs, hframe⟩ := observe_of_alike halike
  obtain ⟨hax, -⟩ := halike
  exact ⟨t, t', ht, ht', hax, hpv, hcs, hframe, memRead_congr hframe⟩

/-! ### The frame while a host sends it (R176) -/

theorem observeFrame_congr {s t : State} (hfr : t.fr = s.fr) (hv : t.frValid = s.frValid) : t.observeFrame = s.observeFrame :=
  answer_congr _ hv fun _ => hfr

/-- The operation of a sample that keeps the host's duty is no ENC and no TICK, so it leaves the frame register. -/
theorem observeFrame_of_exec_keepsFrame {p : Ports} {s t : State} (hp : keepsFrame p) (he : exec (decode p) s = .next t) :
    t.observeFrame = s.observeFrame := by
  obtain ⟨-, henc, htick⟩ := hp
  have hop : (decode p).opcode = p.op := opcode_decode p
  have hne : ∀ ch flags, decode p ≠ .enc ch flags := fun ch flags hd => henc (hop.symm.trans (congrArg Instr.opcode hd))
  have hnt : decode p ≠ .tick := fun hd => htick (hop.symm.trans (congrArg Instr.opcode hd))
  obtain ⟨hfr, hv⟩ := fr_of_exec he hne hnt
  exact observeFrame_congr hfr hv

/-- If every sample of the run keeps the host's duty, `frame_out` answers after it as before it. -/
def KeepsFrameOut (ps : List Ports) (s t : State) : Prop :=
  sendsWhole ps → t.observeFrame = s.observeFrame

theorem keepsFrameOut_nil (s : State) : KeepsFrameOut [] s s := fun _ => rfl

theorem keepsFrameOut_cons {p : Ports} {ps : List Ports} {s t u : State}
    (he : exec (decode p) { s with now := s.now + 1 } = .next t) (h : KeepsFrameOut ps t u) : KeepsFrameOut (p :: ps) s u := by
  intro hsends
  obtain ⟨hp, hps⟩ := List.forall_mem_cons.mp hsends
  calc u.observeFrame = t.observeFrame := h hps
    _ = s.observeFrame := observeFrame_of_exec_keepsFrame (s := { s with now := s.now + 1 }) hp he

theorem drive_keeps_observeFrame (ps : List Ports) (s : State) (h : sendsWhole ps) :
    ∃ t, drive ps s = .next t ∧ t.observeFrame = s.observeFrame := by
  have hnr : withoutReset ps := fun p hp => (h p hp).1
  obtain ⟨t, ht, hkeeps⟩ := drive_induction keepsFrameOut_nil (fun _ _ _ _ _ => keepsFrameOut_cons) ps s hnr
  exact ⟨t, ht, hkeeps h⟩

theorem sendsWhole_take {ps : List Ports} (h : sendsWhole ps) (n : Nat) : sendsWhole (ps.take n) :=
  fun p hp => h p (List.mem_of_mem_take hp)

/-- Settles O46: each step of the stretch ends a shorter run that keeps the duty too. -/
theorem frameIsStableWhileSending : Obligations.FrameIsStableWhileSending := by
  intro ps n s hsends _
  obtain ⟨t, ht, hframe⟩ := drive_keeps_observeFrame (ps.take n) s (sendsWhole_take hsends n)
  exact ⟨t, ht, hframe, memRead_congr hframe⟩

end Sys2Proof.Machine
end
